-- ==== Sys2Proof/Word.lean ====
section
/-! DEFINITION. The widths of the block's values (00_scope.md R7, R9, R11). Bits are numbered from 0 at the least
significant end; every value is unsigned unless it is read as a two's complement integer (`toInt`). -/

namespace Sys2Proof

/-- `bits8`: a frame byte, a checksum, a remainder, an opcode, a bus command byte (CHK_W). -/
abbrev Byte := BitVec 8

/-- `bits16`: `data`, `value`, `raw` (DATA_W). -/
abbrev Half := BitVec 16

/-- `bits24`: the dividend of the CRC loop (DIVIDEND_W). -/
abbrev Dividend := BitVec 24

/-- `int32`, Q16: the converter's output (PHYS_W, PHYS_FRAC). -/
abbrev Phys := BitVec 32

/-- A command word of format CMD40 (CMD_W). -/
abbrev CmdWord := BitVec 40

/-- The packed response (RSP_W). -/
abbrev RspWord := BitVec 80

end Sys2Proof
end

