-- ==== Sys2Proof/Machine/Constants.lean ====
section
/-! DEFINITION. The constants the spec fixes: those wired in the block (00_scope.md R7) and those of the host (R8). -/

namespace Sys2Proof.Machine

open Sys2Proof

/-- CRC_ITER: iterations of the CRC loop, bit positions 23 down to 8. -/
def crcIterations : Nat := 16
/-- POLY: the generator, 9 significant bits, as a 24-bit value. -/
def poly : Dividend := 0x000131#24
/-- DATA_MASK, applied to `lsb`. -/
def dataMask : Byte := 0xFC#8
/-- STATUS_MASK, bit 1 of `lsb`. -/
def statusMask : Byte := 0x02#8
/-- ADJ_RH, the checksum adjustment of the humidity path. -/
def adjRh : Byte := 0x62#8
/-- ADJ_T, the checksum adjustment of the temperature path. -/
def adjT : Byte := 0x00#8
/-- RH_SLOPE times 1 (43_unit_converter.md R100). -/
def rhSlope : Int := 125
/-- RH_OFFSET times SCALE: 6 * 65536 (43_unit_converter.md R100). -/
def rhOffset : Int := 393216
/-- T_SLOPE in hundredths (43_unit_converter.md R101). -/
def tSlope : Int := 17572
/-- T_OFFSET in hundredths times SCALE: 4685 * 65536 (43_unit_converter.md R101). -/
def tOffset : Int := 307036160
/-- FRAME_LEN, RESP_LEN: bytes of a frame, read in every transaction (00_scope.md R7, R8). -/
def frameLen : Nat := 3
/-- BUS_ADDR, the fixed sensor bus address (00_scope.md R8, 20_memory.md R47). -/
def busAddr : BitVec 16 := 0x0040#16

end Sys2Proof.Machine
end

