-- ==== Sys2Proof/Machine/Crc.lean ====
section
/-! DEFINITION. The remainder function of CRCValidator (41_crc_validator.md R80, R86). -/

namespace Sys2Proof.Machine

open Sys2Proof

/-- One iteration `i` of R80's loop: test bit `p = 23 - i`, and where it is 1 XOR the generator shifted left by
`p - 8 = 15 - i` (R80, R81). -/
def crcStep (d : Dividend) (i : Nat) : Dividend :=
  if d.getLsbD (23 - i) then d ^^^ (poly <<< (15 - i)) else d

/-- The dividend after the first `n` iterations, in the order i = 0, 1, 2, …. -/
def crcLoop : Nat → Dividend → Dividend
  | 0, d => d
  | n + 1, d => crcStep (crcLoop n d) n

/-- `crc8`: the low 8 bits of the dividend `data ++ 0x00` after 16 iterations (R80). -/
def crc8 (data : Half) : Byte :=
  (crcLoop crcIterations (data ++ 0#8)).extractLsb' 0 8

/-- One step of the shift-register form: `t = c[7] xor data[k]`, shift, XOR 0x31 where `t` is 1 (R86). -/
def lfsrStep (data : Half) (k : Nat) (c : Byte) : Byte :=
  if (c.getLsbD 7 != data.getLsbD k) then (c <<< 1) ^^^ 0x31#8 else c <<< 1

/-- The shift register after the data bits `n - 1` down to `0` of `data`, most significant first, from `c`. -/
def lfsrLoop (data : Half) : Nat → Byte → Byte
  | 0, c => c
  | n + 1, c => lfsrLoop data n (lfsrStep data n c)

/-- `crc8'`, the equivalent shift-register form (R86): an alternative definition that no meaning uses. -/
def crc8ShiftRegister (data : Half) : Byte := lfsrLoop data 16 0#8

/-- The product over GF(2) of the generator and the polynomial whose coefficients are the low `n` bits of `q`, in 24 bits
(41_crc_validator.md R84's polynomial reading). -/
def generatorTimes (q : Half) : Nat → Dividend
  | 0 => 0#24
  | n + 1 => (if q.getLsbD n then poly <<< n else 0#24) ^^^ generatorTimes q n

end Sys2Proof.Machine
end

