-- ==== Sys2Proof/Config.lean ====
section
/-! DEFINITION. What the spec leaves open (93_implementation_defined.md parts 1 and 2): constants without a body, so that no
proof can lean on a value of theirs. The constants the spec fixes are in Machine/Constants.lean. -/

namespace Sys2Proof

/-- The three bytes of HA's RawReading in the order received (30_encoding.md R60). -/
structure Frame where
  /-- High byte of the data value. -/
  msb : Byte
  /-- Low byte of the data value, with the status bit S in bit 1 and the reserved bit Z in bit 0. -/
  lsb : Byte
  /-- The received checksum K. -/
  checksum : Byte
  deriving DecidableEq, Repr, Inhabited

/-- What one bus transaction gives back: exactly the bytes asked for, or a `BusError` (20_memory.md R43, R45). -/
inductive BusAnswer where
  /-- The transaction succeeded and the sensor's three bytes arrived. -/
  | frame (f : Frame)
  /-- The transaction failed: device absent, NACK or timeout, not told apart. -/
  | busError
  deriving DecidableEq, Repr, Inhabited

/-- The answer of the `n`-th draw, if that draw is a bus transaction: a free value, under no law (10_state.md R21;
93_implementation_defined.md U4, U9; log 7). -/
opaque Config.busAnswer : Nat → BusAnswer

/-- Whether discovery and open succeed, if the `n`-th draw is an open attempt: a free value
(93_implementation_defined.md U11; log 8). -/
opaque Config.openSucceeds : Nat → Bool

/-- LATENCY of a command word, less one: a free number, so that LATENCY is any whole number of cycles of at least 1,
possibly different for different commands (00_scope.md R10, 70_reset_and_hazards.md R161; log 5). -/
opaque Config.extraLatency : CmdWord → Nat

/-- The bus identifier supplied at construction (10_state.md R28): the host's only configuration; nothing depends on it. -/
opaque Config.busIdentifier : Nat

end Sys2Proof
end

