-- ==== Sys2Proof/Syntax.lean ====
section
/-! DEFINITION. The instructions: one constructor for each row of spec/opcode_table.json. -/

namespace Sys2Proof

/-- The six commands of the block (format CMD40) and the two bus command bytes of the host (format BUS8). A field the
command ignores (30_encoding.md R67) is no operand. -/
inductive Instr where
  /-- `CRCV data16, chk8` (41_crc_validator.md R82). -/
  | crcv (data : Half) (chk : Byte)
  /-- `DEC msb8, lsb8, chk8, adj8` (42_measurement_decoder.md R93). -/
  | dec (msb lsb chk adj : Byte)
  /-- `CVRH raw16` (43_unit_converter.md R102). -/
  | cvrh (raw : Half)
  /-- `CVT raw16` (43_unit_converter.md R103). -/
  | cvt (raw : Half)
  /-- `MRH msb8, lsb8, chk8` (44_measurement_paths.md R115). -/
  | mrh (msb lsb chk : Byte)
  /-- `MT msb8, lsb8, chk8` (44_measurement_paths.md R116). -/
  | mt (msb lsb chk : Byte)
  /-- HOST: the bus byte 0xE5, humidity-measure-with-hold (30_encoding.md R73). -/
  | busRhHold
  /-- HOST: the bus byte 0xE3, temperature-measure-with-hold (30_encoding.md R73). -/
  | busTHold
  deriving DecidableEq, Repr

end Sys2Proof
end

