-- ==== Sys2Proof/WellFormed.lean ====
section
/-! DEFINITION. What makes an instruction well formed. An `Instr` carries its operands at their exact widths and every
value of them is allowed (41 R82 "total over all 2^24 operand pairs", 42 R93 "all values allowed", 43 R102, R103), so
every `Instr` is well formed. What can be ill formed is the assembler's line, whose operands are plain numbers
(30_encoding.md R71): the number of operands and the width of each. -/

namespace Sys2Proof

/-- The mnemonics an assembler line can begin with: the six commands and the two pseudo-instructions (R71, R72). -/
inductive Mnemonic where
  | crcv
  | dec
  | cvrh
  | cvt
  | mrh
  | mt
  | dech
  | dect
  deriving DecidableEq, Repr

/-- One assembler line: mnemonic and operands, as numbers (R71). -/
structure AsmLine where
  mnemonic : Mnemonic
  operands : List Nat
  deriving DecidableEq, Repr

/-- The widths in bits of the operands of each mnemonic, in the order of R71 and R72. -/
def Mnemonic.widths : Mnemonic → List Nat
  | .crcv => [16, 8]
  | .dec => [8, 8, 8, 8]
  | .cvrh => [16]
  | .cvt => [16]
  | .mrh => [8, 8, 8]
  | .mt => [8, 8, 8]
  | .dech => [8, 8, 8]
  | .dect => [8, 8, 8]

/-- Every operand fits its width, one operand for each width. -/
def operandsFit : List Nat → List Nat → Bool
  | [], [] => true
  | v :: vs, w :: ws => decide (v < 2 ^ w) && operandsFit vs ws
  | [], _ :: _ => false
  | _ :: _, [] => false

/-- A line is well formed when it has exactly the operands of its mnemonic and each fits its width. -/
def AsmLine.wellFormed (l : AsmLine) : Bool :=
  operandsFit l.operands l.mnemonic.widths

end Sys2Proof
end

