-- ==== Sys2Proof/Decode.lean ====
section
/-! DEFINITION. Decoding, total on any word and on any bytes, rejecting by name, and the encoder after it, both from
30_encoding.md (R63 to R69, R73, R74) and spec/opcode_table.json. -/

namespace Sys2Proof

/-- A code word of one of the table's two formats (R74). -/
inductive CodeWord where
  /-- A 40-bit command word, presented to the block. -/
  | cmd40 (w : CmdWord)
  /-- An 8-bit bus command byte, written by the host to the sensor. -/
  | bus8 (b : Byte)
  deriving DecidableEq, Repr

/-- Why a code word stands for no instruction. -/
inductive DecodeError where
  /-- The command's OP is 0x00 or 0x07 to 0xFF (R66). -/
  | illegalOpcode (op : Byte)
  /-- The bus byte is none of the two HA lists (R73). -/
  | unlistedBusByte (b : Byte)
  deriving DecidableEq, Repr

/-- Why a list of bytes stands for no instruction. -/
inductive BytesError where
  /-- Neither 1 byte (BUS8) nor 5 bytes (CMD40). -/
  | badLength (n : Nat)
  /-- A code word, but an unlisted one. -/
  | unlisted (e : DecodeError)
  deriving DecidableEq, Repr

/-- A command word from its five fields, OP in the high end (R63). -/
def joinCommand (op a m l c : Byte) : CmdWord := op ++ a ++ m ++ l ++ c

/-- Field OP of a command word, bits 39:32 (R63). -/
def CmdWord.op (w : CmdWord) : Byte := w.extractLsb' 32 8
/-- Field A of a command word, bits 31:24 (R63). -/
def CmdWord.a (w : CmdWord) : Byte := w.extractLsb' 24 8
/-- Field M of a command word, bits 23:16 (R63). -/
def CmdWord.m (w : CmdWord) : Byte := w.extractLsb' 16 8
/-- Field L of a command word, bits 15:8 (R63). -/
def CmdWord.l (w : CmdWord) : Byte := w.extractLsb' 8 8
/-- Field C of a command word, bits 7:0 (R63). -/
def CmdWord.c (w : CmdWord) : Byte := w.extractLsb' 0 8

/-- The opcode values (R65). -/
def opCRCV : Byte := 0x01#8
/-- R65. -/
def opDEC : Byte := 0x02#8
/-- R65. -/
def opCVRH : Byte := 0x03#8
/-- R65. -/
def opCVT : Byte := 0x04#8
/-- R65. -/
def opMRH : Byte := 0x05#8
/-- R65. -/
def opMT : Byte := 0x06#8

/-- The bus command byte CMD_RH_HOLD (00_scope.md R8, 30_encoding.md R73). -/
def cmdRhHold : Byte := 0xE5#8
/-- The bus command byte CMD_T_HOLD (00_scope.md R8, 30_encoding.md R73). -/
def cmdTHold : Byte := 0xE3#8

/-- The command a 40-bit word stands for: OP selects by its full 8 bits (R65); the fields a command does not use are not
looked at (R64, R67); any other OP is illegal whatever the other fields hold (R66). The 16-bit operands are `M ++ L` (R68). -/
def decodeCommand (w : CmdWord) : Except DecodeError Instr :=
  let op := CmdWord.op w
  let data : Half := CmdWord.m w ++ CmdWord.l w
  if op = opCRCV then .ok (.crcv data (CmdWord.c w))
  else if op = opDEC then .ok (.dec (CmdWord.m w) (CmdWord.l w) (CmdWord.c w) (CmdWord.a w))
  else if op = opCVRH then .ok (.cvrh data)
  else if op = opCVT then .ok (.cvt data)
  else if op = opMRH then .ok (.mrh (CmdWord.m w) (CmdWord.l w) (CmdWord.c w))
  else if op = opMT then .ok (.mt (CmdWord.m w) (CmdWord.l w) (CmdWord.c w))
  else .error (.illegalOpcode op)

/-- The instruction a bus byte stands for (R73). -/
def decodeBus (b : Byte) : Except DecodeError Instr :=
  if b = cmdRhHold then .ok .busRhHold
  else if b = cmdTHold then .ok .busTHold
  else .error (.unlistedBusByte b)

/-- The decoder: total on code words. -/
def decode : CodeWord → Except DecodeError Instr
  | .cmd40 w => decodeCommand w
  | .bus8 b => decodeBus b

/-- A code word from the bytes that carry it, most significant byte first: OP, A, M, L, C for a command (20_memory.md R41). -/
def codeWordOfBytes : List Byte → Except BytesError CodeWord
  | [b] => .ok (.bus8 b)
  | [op, a, m, l, c] => .ok (.cmd40 (joinCommand op a m l c))
  | bs => .error (.badLength bs.length)

/-- The decoder on any list of bytes. -/
def decodeBytes (bs : List Byte) : Except BytesError Instr :=
  match codeWordOfBytes bs with
  | .error e => .error e
  | .ok c =>
    match decode c with
    | .error e => .error (.unlisted e)
    | .ok i => .ok i

/-- The encoder: the code word of an instruction, every ignored field written as zero (R71). -/
def encode : Instr → CodeWord
  | .crcv data chk => .cmd40 (joinCommand opCRCV 0#8 (data.extractLsb' 8 8) (data.extractLsb' 0 8) chk)
  | .dec msb lsb chk adj => .cmd40 (joinCommand opDEC adj msb lsb chk)
  | .cvrh raw => .cmd40 (joinCommand opCVRH 0#8 (raw.extractLsb' 8 8) (raw.extractLsb' 0 8) 0#8)
  | .cvt raw => .cmd40 (joinCommand opCVT 0#8 (raw.extractLsb' 8 8) (raw.extractLsb' 0 8) 0#8)
  | .mrh msb lsb chk => .cmd40 (joinCommand opMRH 0#8 msb lsb chk)
  | .mt msb lsb chk => .cmd40 (joinCommand opMT 0#8 msb lsb chk)
  | .busRhHold => .bus8 cmdRhHold
  | .busTHold => .bus8 cmdTHold

/-- The bytes that carry a code word, most significant byte first (20_memory.md R41). -/
def CodeWord.bytes : CodeWord → List Byte
  | .cmd40 w => [CmdWord.op w, CmdWord.a w, CmdWord.m w, CmdWord.l w, CmdWord.c w]
  | .bus8 b => [b]

/-- The encoder to bytes. -/
def encodeBytes (i : Instr) : List Byte := (encode i).bytes

/-- How many bits the opcode table gives a code word's format (R74). -/
def CodeWord.nbits : CodeWord → Nat
  | .cmd40 _ => 40
  | .bus8 _ => 8

/-- A code word as the number whose bits the opcode table numbers. -/
def CodeWord.value : CodeWord → Nat
  | .cmd40 w => w.toNat
  | .bus8 b => b.toNat

/-- One row of spec/opcode_table.json: width, match and mask. -/
structure OpcodeRow where
  width : Nat
  matchBits : Nat
  mask : Nat
  deriving DecidableEq, Repr

/-- The row of spec/opcode_table.json an instruction belongs to (R65, R74). -/
def Instr.row : Instr → OpcodeRow
  | .crcv _ _ => ⟨40, 0x0100000000, 0xFF00000000⟩
  | .dec _ _ _ _ => ⟨40, 0x0200000000, 0xFF00000000⟩
  | .cvrh _ => ⟨40, 0x0300000000, 0xFF00000000⟩
  | .cvt _ => ⟨40, 0x0400000000, 0xFF00000000⟩
  | .mrh _ _ _ => ⟨40, 0x0500000000, 0xFF00000000⟩
  | .mt _ _ _ => ⟨40, 0x0600000000, 0xFF00000000⟩
  | .busRhHold => ⟨8, 0xE5, 0xFF⟩
  | .busTHold => ⟨8, 0xE3, 0xFF⟩

/-- The code word whose bits, numbered as the opcode table numbers them, are `w`: a row of 8 bits is a bus byte, every
other row is a command word. -/
def tableWord (nbits w : Nat) : CodeWord :=
  if nbits = 8 then .bus8 (BitVec.ofNat 8 w) else .cmd40 (BitVec.ofNat 40 w)

/-- The instruction the decoder reads from the table's word `w`. -/
def decodeTableWord (nbits w : Nat) : Option Instr :=
  match decode (tableWord nbits w) with
  | .ok i => some i
  | .error _ => none

end Sys2Proof
end

