-- ==== Sys2Proof/Machine/State.lean ====
section
/-! DEFINITION. The state of the machine: the block (10_state.md sections 2 and 3), the host's session (section 4), the bus,
and the list of the host's next actions. Plain data throughout. -/

namespace Sys2Proof.Machine

open Sys2Proof

/-- The response register RSP by its fields (10_state.md R22). -/
structure Rsp where
  /-- RSP[79:72], the flag byte (R23); its bits are read in Machine/Flags.lean. -/
  flg : Byte
  /-- RSP[71:64], the computed remainder. -/
  rem : Byte
  /-- RSP[63:48], the assembled value before the policy. -/
  asm : Half
  /-- RSP[47:32], the value after the policy. -/
  val : Half
  /-- RSP[31:0], the converter's output, int32 Q16. -/
  phys : Phys
  deriving DecidableEq, Repr, Inhabited

/-- An accepted command whose response is not yet written (10_state.md R30, 70_reset_and_hazards.md R151). -/
structure InFlight where
  /-- The command word sampled in the accepting cycle. -/
  cmd : CmdWord
  /-- How many rising clock edges are still to come, the one that writes the response among them; at least 1. -/
  remaining : Nat
  deriving DecidableEq, Repr

/-- The block's input ports in one clock cycle (10_state.md R30). -/
structure PortInputs where
  /-- Synchronous reset, active high. -/
  rst : Bool
  /-- The host presents a command word on `cmd`. -/
  cmdValid : Bool
  /-- The command word. -/
  cmd : CmdWord
  deriving DecidableEq, Repr

/-- HOST: the bus handle, to the device at the fixed sensor address on the bus given at construction (10_state.md R28, R31,
20_memory.md R47). -/
structure BusHandle where
  busId : Nat
  address : BitVec 16
  deriving DecidableEq, Repr

/-- HOST: one bus transaction: the command byte written, the response length asked for, the answer (20_memory.md R43). -/
structure Transaction where
  command : Byte
  responseLength : Nat
  answer : BusAnswer
  deriving DecidableEq, Repr

/-- HOST: where the session's one `initialize` stands (44_measurement_paths.md R121, 60_exceptions.md R137, R142). -/
inductive InitPhase where
  /-- Not called yet. -/
  | notStarted
  /-- Called, suspended while discovery and open complete. -/
  | suspended
  /-- Returned its Boolean. -/
  | finished
  /-- Abandoned by its caller before completion. -/
  | abandoned
  deriving DecidableEq, Repr

/-- HOST: the parameter TEMPERATURE_COMMAND (00_scope.md R10, 44_measurement_paths.md R125). -/
inductive TemperatureMode where
  /-- The literal behaviour, the default: `readTemperature` sends 0xE5 (HA's TEMPERATURE_COMMAND_BUG). -/
  | literal
  /-- The corrected alternate: it sends 0xE3. -/
  | corrected
  deriving DecidableEq, Repr

/-- HOST: what a host call hands to its caller. -/
inductive CallOutcome where
  /-- A reading: the bits of a binary32 number (43_unit_converter.md R109). -/
  | number (float32 : BitVec 32)
  /-- The transport's failure, surfaced once (60_exceptions.md R133). -/
  | busFailure
  /-- The Boolean of `initialize` (44_measurement_paths.md R121). -/
  | initDone (ok : Bool)
  deriving DecidableEq, Repr

/-- What the host does next: the only way anything outside acts on the machine. -/
inductive HostAction where
  /-- Issue a code word and wait until it is done: present a command word to the block and wait for its response
  (10_state.md R26), or write a bus byte and read the answer (30_encoding.md R73). -/
  | issue (c : CodeWord)
  /-- One clock cycle of the block with these inputs (10_state.md R30). -/
  | cycle (p : PortInputs)
  /-- Read the 80 bits of the port rsp (10_state.md R27). -/
  | sampleRsp
  /-- Call `initialize`, which suspends (44_measurement_paths.md R121, 60_exceptions.md R137). -/
  | beginInit
  /-- `initialize` resumes and returns (R121). -/
  | completeInit
  /-- The caller abandons a suspended `initialize` (60_exceptions.md R142). -/
  | abandonInit
  /-- `readHumidity()` (44_measurement_paths.md R122). -/
  | readHumidity
  /-- `readTemperature()` (44_measurement_paths.md R123). -/
  | readTemperature
  /-- The host's process starts again: a new session with nothing kept (10_state.md R32, 70_reset_and_hazards.md R152). -/
  | newSession
  deriving DecidableEq, Repr

/-- The machine's state. -/
structure State where
  /-- The block's response register (R22). -/
  rsp : Rsp
  /-- The port rsp_valid in the current cycle (R30). -/
  rspValid : Bool
  /-- The command in progress, if any; the port cmd_ready is computed from it (R30). -/
  inflight : Option InFlight
  /-- HOST: the session's `available` (R31). -/
  available : Bool
  /-- HOST: the bus handle, owned once initialization has succeeded (R31). -/
  busHandle : Option BusHandle
  /-- HOST: where `initialize` stands. -/
  init : InitPhase
  /-- HOST: the parameter TEMPERATURE_COMMAND (R10, R125). -/
  temperatureMode : TemperatureMode
  /-- HOST: the last bus transaction (R43). -/
  lastTransaction : Option Transaction
  /-- HOST: what the host call that ended last handed to its caller. -/
  outcome : Option CallOutcome
  /-- HOST: what the host last read on the port rsp (R27). -/
  sampled : Option RspWord
  /-- The model's own: how many free values have been drawn (log 7). -/
  draws : Nat
  /-- The model's own: what the host does next, in order (log 1, log 2). -/
  script : List HostAction
  deriving DecidableEq, Repr

/-- Nothing traps and nothing stops the block (60_exceptions.md R135, R136): there is no fault to name. Nobody raises one. -/
inductive Fault where
  deriving DecidableEq, Repr

/-- Why the model takes no step. -/
inductive Refusal where
  /-- Raised by exec's arm of an instruction without a meaning; no arm is one. Safe: the machine stops. -/
  | notModelled (mnemonic : String)
  /-- Raised by `issue` for a bus byte other than 0xE5 and 0xE3: "a model of the host sends no other" (30_encoding.md
  R73; log 9). Safe: the model stops where the spec gives nothing. -/
  | unlistedBusByte (b : Byte)
  /-- Raised by the host calls of `initialize` made out of order or a second time in a session: HA has no word on it and
  "a model of the host should make it one call per session" (91_not_in_source.md N18; log 12). Safe. -/
  | initOutOfOrder
  deriving DecidableEq, Repr

/-- The response register after reset: all zeros (10_state.md R33). -/
def Rsp.zero : Rsp := ⟨0#8, 0#8, 0#16, 0#16, 0#32⟩

/-- The machine right after reset of the block at the start of a session: 10_state.md R33, R31, R10; the host's fields the
spec gives no value for are said in log 11, `script` in log 2, `draws` in log 7. -/
def State.reset : State where
  rsp := Rsp.zero
  rspValid := false
  inflight := none
  available := false
  busHandle := none
  init := .notStarted
  temperatureMode := .literal
  lastTransaction := none
  outcome := none
  sampled := none
  draws := 0
  script := []

end Sys2Proof.Machine
end

