-- ==== Sys2Proof/Machine/Flags.lean ====
section
/-! DEFINITION. The flag byte FLG and the packing of RSP (10_state.md R22, R23, 30_encoding.md R70). -/

namespace Sys2Proof.Machine

open Sys2Proof

/-- FLG from its five flags: `0b000 ++ USABLE ++ CRCOK ++ ST ++ ERR ++ VALID` (R70). -/
def flagByte (usable crcok st err valid : Bool) : Byte :=
  0#3 ++ BitVec.ofBool usable ++ BitVec.ofBool crcok ++ BitVec.ofBool st ++ BitVec.ofBool err ++ BitVec.ofBool valid

/-- FLG.VALID, bit 0: a command has completed since reset (R23). -/
def Rsp.valid (r : Rsp) : Bool := r.flg.getLsbD 0
/-- FLG.ERR, bit 1: the command's opcode is none of the six (R23). -/
def Rsp.err (r : Rsp) : Bool := r.flg.getLsbD 1
/-- FLG.ST, bit 2: the status bit of a decoded frame (R23). -/
def Rsp.st (r : Rsp) : Bool := r.flg.getLsbD 2
/-- FLG.CRCOK, bit 3: the remainder equals the adjusted checksum (R23). -/
def Rsp.crcok (r : Rsp) : Bool := r.flg.getLsbD 3
/-- FLG.USABLE, bit 4: the decoded reading counts (R23). -/
def Rsp.usable (r : Rsp) : Bool := r.flg.getLsbD 4
/-- FLG[7:5], reserved, always read 0 (R23). -/
def Rsp.reserved (r : Rsp) : BitVec 3 := r.flg.extractLsb' 5 3

/-- RSP as the 80 bits of the port rsp: `FLG ++ REM ++ ASM ++ VAL ++ PHYS` (R70). -/
def Rsp.word (r : Rsp) : RspWord := r.flg ++ r.rem ++ r.asm ++ r.val ++ r.phys

/-- The fields of an 80-bit response word (R22, R70). -/
def Rsp.ofWord (w : RspWord) : Rsp where
  flg := w.extractLsb' 72 8
  rem := w.extractLsb' 64 8
  asm := w.extractLsb' 48 16
  val := w.extractLsb' 32 16
  phys := w.extractLsb' 0 32

/-- The bytes that carry RSP over a byte-wide path: FLG, REM, then ASM, VAL and PHYS each high byte first (20_memory.md R41). -/
def Rsp.bytes (r : Rsp) : List Byte :=
  [r.flg, r.rem, r.asm.extractLsb' 8 8, r.asm.extractLsb' 0 8, r.val.extractLsb' 8 8, r.val.extractLsb' 0 8,
    r.phys.extractLsb' 24 8, r.phys.extractLsb' 16 8, r.phys.extractLsb' 8 8, r.phys.extractLsb' 0 8]

/-- What a reader may take from RSP: nothing while VALID = 0 (10_state.md R33, 93_implementation_defined.md P5; log 16). -/
def Rsp.reading (r : Rsp) : Option Rsp := if r.valid then some r else none

end Sys2Proof.Machine
end

