-- ==== Sys2Proof/Machine/Operands.lean ====
section
/-! DEFINITION. Operand assembly (30_encoding.md R68, 42_measurement_decoder.md R90 to R92). -/

namespace Sys2Proof.Machine

open Sys2Proof

/-- `asm16(msb, lsb) = (zext_16(msb) << 8) | zext_16(lsb & 0xFC)` (R90). -/
def asm16 (msb lsb : Byte) : Half :=
  (msb.setWidth 16 <<< 8) ||| (lsb &&& dataMask).setWidth 16

/-- `statusBit = (lsb & 0x02) != 0` (R91). -/
def statusBit (lsb : Byte) : Bool := (lsb &&& statusMask) != 0#8

/-- The checksum after the adjustment: the XOR is on the received checksum, not on the remainder (R62, R92). -/
def adjusted (checksum adj : Byte) : Byte := checksum ^^^ adj

end Sys2Proof.Machine
end

