-- ==== Sys2Proof/Machine/Ops.lean ====
section
/-! DEFINITION. The operations over the state that the meanings share. -/

namespace Sys2Proof.Machine

open Sys2Proof

/-- The port cmd_ready: 0 from a command's acceptance until its response is written (10_state.md R30). -/
def State.cmdReady (s : State) : Bool := s.inflight.isNone

/-- A command completes: all 80 bits of RSP change together, `rsp_valid` pulses, `cmd_ready` is 1 again; nothing else
changes (10_state.md R24, R30, 60_exceptions.md R136; log 3). -/
def State.respond (s : State) (r : Rsp) : State :=
  { s with rsp := r, rspValid := true, inflight := none }

/-- Synchronous reset of the block: RSP all zeros, `rsp_valid` 0, a command in progress abandoned; the host is not touched
(70_reset_and_hazards.md R150 to R152). -/
def State.blockReset (s : State) : State :=
  { s with rsp := Rsp.zero, rspValid := false, inflight := none }

/-- The response to an illegal command: VALID and ERR, all result fields zero (30_encoding.md R66). -/
def illegalRsp : Rsp := ⟨flagByte false false false true true, 0#8, 0#16, 0#16, 0#32⟩

/-- Executing an illegal command word is one step like any other: nothing traps, nothing halts (R66, 60_exceptions.md R136).
The block's one abnormal outcome without an instruction; it stands where another machine takes an exception. -/
def execIllegal (s : State) : Host.Outcome State Fault Refusal := .next (s.respond illegalRsp)

/-- A frame judged under a checksum adjustment (42_measurement_decoder.md R93, R94): the status bit and the checksum are
judged independently and both verdicts are reported (60_exceptions.md R138); VAL is the assembled value if the reading is
usable, else 0; PHYS is not produced. -/
def decodeFrame (msb lsb chk adj : Byte) : Rsp :=
  let asm := asm16 msb lsb
  let st := statusBit lsb
  let rem := crc8 asm
  let ok := rem == adjusted chk adj
  let usable := !st && ok
  { flg := flagByte usable ok st false true
    rem := rem
    asm := asm
    val := if usable then asm else 0#16
    phys := 0#32 }

/-- A response of the converter alone: VALID and PHYS, the rest zero (43_unit_converter.md R102, R103). -/
def converted (p : Phys) : Rsp := ⟨flagByte false false false false true, 0#8, 0#16, 0#16, p⟩

/-- HOST. One atomic bus transaction: the command byte written, exactly three bytes asked for, the answer recorded, one
free value drawn (20_memory.md R43 to R46; log 7). -/
def State.transact (s : State) (command : Byte) (answer : BusAnswer) : State :=
  { s with lastTransaction := some ⟨command, frameLen, answer⟩, draws := s.draws + 1 }

/-- HOST. A call hands its outcome to the caller. -/
def State.hand (s : State) (o : CallOutcome) : State := { s with outcome := some o }

end Sys2Proof.Machine
end

