-- ==== Sys2Proof/Machine/BusCommands.lean ====
section
/-! DEFINITION. HOST: the two bus command bytes (30_encoding.md R73). Each is written to the sensor and followed by a read
of three bytes, as one transaction (20_memory.md R44, R46); what comes back, bytes or failure, is a free value
(10_state.md R21). The block is not touched. -/

namespace Sys2Proof.Machine

open Sys2Proof

/-- BUS_RH_HOLD, 0xE5 (R73; log 9). -/
def execBusRhHold (s : State) : Host.Outcome State Fault Refusal :=
  .next (s.transact cmdRhHold (Config.busAnswer s.draws))

/-- BUS_T_HOLD, 0xE3 (R73; log 9). -/
def execBusTHold (s : State) : Host.Outcome State Fault Refusal :=
  .next (s.transact cmdTHold (Config.busAnswer s.draws))

end Sys2Proof.Machine
end

