-- ==== Sys2Proof/Machine/CrcValidator.lean ====
section
/-! DEFINITION. CRCValidator: the command CRCV (41_crc_validator.md). -/

namespace Sys2Proof.Machine

open Sys2Proof

/-- The response of CRCV: CRCOK is the equality of remainder and received checksum; REM is reported either way (R82). -/
def crcvRsp (data : Half) (chk : Byte) : Rsp :=
  ⟨flagByte false (crc8 data == chk) false false true, crc8 data, 0#16, 0#16, 0#32⟩

/-- CRCV (R82). -/
def execCrcv (data : Half) (chk : Byte) (s : State) : Host.Outcome State Fault Refusal :=
  .next (s.respond (crcvRsp data chk))

end Sys2Proof.Machine
end

