-- ==== Sys2Proof/Machine/MeasurementDecoder.lean ====
section
/-! DEFINITION. MeasurementDecoder: the command DEC (42_measurement_decoder.md). -/

namespace Sys2Proof.Machine

open Sys2Proof

/-- DEC (R93). -/
def execDec (msb lsb chk adj : Byte) (s : State) : Host.Outcome State Fault Refusal :=
  .next (s.respond (decodeFrame msb lsb chk adj))

end Sys2Proof.Machine
end

