-- ==== Sys2Proof/Machine/UnitConverter.lean ====
section
/-! DEFINITION. UnitConverter: the commands CVRH and CVT (43_unit_converter.md). -/

namespace Sys2Proof.Machine

open Sys2Proof

/-- `rh_q16(raw) = to_int32(125 * int(raw) - 393216)` (R100); always in range (R104). -/
def rhQ16 (raw : Half) : Phys := BitVec.ofInt 32 (rhSlope * raw.toNat - rhOffset)

/-- `t_q16(raw) = to_int32(17572 * int(raw) - 307036160)` (R101); always in range (R104). -/
def tQ16 (raw : Half) : Phys := BitVec.ofInt 32 (tSlope * raw.toNat - tOffset)

/-- CVRH (R102). -/
def execCvrh (raw : Half) (s : State) : Host.Outcome State Fault Refusal :=
  .next (s.respond (converted (rhQ16 raw)))

/-- CVT (R103). -/
def execCvt (raw : Half) (s : State) : Host.Outcome State Fault Refusal :=
  .next (s.respond (converted (tQ16 raw)))

end Sys2Proof.Machine
end

