-- ==== Sys2Proof/Machine/MeasurementPaths.lean ====
section
/-! DEFINITION. The two measurement paths: the commands MRH and MT (44_measurement_paths.md). A disqualified reading is
converted, not replaced: the conversion is applied to VAL, which is 0 then (R118). -/

namespace Sys2Proof.Machine

open Sys2Proof

/-- The response of the humidity path (R115). -/
def mrhRsp (msb lsb chk : Byte) : Rsp :=
  let d := decodeFrame msb lsb chk adjRh
  { d with phys := rhQ16 d.val }

/-- The response of the temperature path (R116). -/
def mtRsp (msb lsb chk : Byte) : Rsp :=
  let d := decodeFrame msb lsb chk adjT
  { d with phys := tQ16 d.val }

/-- MRH (R115). -/
def execMrh (msb lsb chk : Byte) (s : State) : Host.Outcome State Fault Refusal :=
  .next (s.respond (mrhRsp msb lsb chk))

/-- MT (R116). -/
def execMt (msb lsb chk : Byte) (s : State) : Host.Outcome State Fault Refusal :=
  .next (s.respond (mtRsp msb lsb chk))

end Sys2Proof.Machine
end

