-- ==== Sys2Proof/Machine/Dispatch.lean ====
section
/-! DEFINITION. One arm for each instruction. -/

namespace Sys2Proof.Machine

open Sys2Proof

/-- What an instruction does. -/
def exec (i : Instr) (s : State) : Host.Outcome State Fault Refusal :=
  match i with
  | .crcv data chk => Sys2Proof.Machine.execCrcv data chk s
  | .dec msb lsb chk adj => Sys2Proof.Machine.execDec msb lsb chk adj s
  | .cvrh raw => Sys2Proof.Machine.execCvrh raw s
  | .cvt raw => Sys2Proof.Machine.execCvt raw s
  | .mrh msb lsb chk => Sys2Proof.Machine.execMrh msb lsb chk s
  | .mt msb lsb chk => Sys2Proof.Machine.execMt msb lsb chk s
  | .busRhHold => Sys2Proof.Machine.execBusRhHold s
  | .busTHold => Sys2Proof.Machine.execBusTHold s

end Sys2Proof.Machine
end

