-- ==== Sys2Proof/Machine/Clock.lean ====
section
/-! DEFINITION. How a code word is carried out, and the block's clock cycle (10_state.md R30, 70_reset_and_hazards.md). -/

namespace Sys2Proof.Machine

open Sys2Proof

/-- A code word is issued and carried out to its end: the decoded instruction is executed; a command word with an illegal
opcode is answered as R66 says; an unlisted bus byte is sent by no model of the host (30_encoding.md R73; log 9). -/
def issue (c : CodeWord) (s : State) : Host.Outcome State Fault Refusal :=
  match decode c with
  | .ok i => exec i s
  | .error (.illegalOpcode _) => execIllegal s
  | .error (.unlistedBusByte b) => .refused (.unlistedBusByte b)

/-- A cycle in which nothing is presented. -/
def PortInputs.idle : PortInputs := ⟨false, false, 0#40⟩

/-- A rising clock edge with a command in progress that has `remaining` edges to go: the edge that is the last one writes the
response (10_state.md R30; log 5). -/
def advance (cmd : CmdWord) (remaining : Nat) (s : State) : Host.Outcome State Fault Refusal :=
  if remaining ≤ 1 then issue (.cmd40 cmd) s
  else .next { s with rspValid := false, inflight := some ⟨cmd, remaining - 1⟩ }

/-- One clock cycle and its rising edge. Reset wins over everything (70_reset_and_hazards.md R150, R151). A command is accepted
in a cycle with `cmd_valid = 1` and `cmd_ready = 1` and in no other; one offered while busy is not sampled and disturbs
nothing (R30, R156). `rsp_valid` is 1 for the one cycle in which RSP takes the response. LATENCY is
`Config.extraLatency w + 1` (R161). -/
def clock (p : PortInputs) (s : State) : Host.Outcome State Fault Refusal :=
  if p.rst then .next s.blockReset
  else
    match s.inflight with
    | some f => advance f.cmd f.remaining s
    | none =>
      if p.cmdValid then advance p.cmd (Config.extraLatency p.cmd + 1) s
      else .next { s with rspValid := false }

/-- Clock cycles one after another. -/
def clockAll : List PortInputs → State → Host.Outcome State Fault Refusal
  | [], s => .next s
  | p :: ps, s =>
    match clock p s with
    | .next t => clockAll ps t
    | .fault f => .fault f
    | .refused r => .refused r

end Sys2Proof.Machine
end

