-- ==== Sys2Proof/Machine/FloatReference.lean ====
section
/-! DEFINITION. HA's floating-point expressions as reference functions (43_unit_converter.md R106 to R109). The block does
not compute them; the host's accessors do. Numbers are exact binary fractions and every rounding is written out. All
numbers that occur are zero or of ordinary size (between 2^-17 and 2^28), so no overflow and no subnormal number occurs.
PRESUMED (93_implementation_defined.md GK1, GK4; log 15): binary64, binary32, round to nearest, ties to even. -/

namespace Sys2Proof.Machine

open Sys2Proof

/-- The number `num / 2 ^ scale`. -/
structure BinFrac where
  num : Int
  scale : Nat
  deriving DecidableEq, Repr

/-- `n` with its low `s` bits rounded away, to nearest, ties to even, and put back as zeros. -/
def roundLow (s n : Nat) : Nat :=
  let q := n / 2 ^ s
  let twice := 2 * (n % 2 ^ s)
  let up := 2 ^ s < twice || (twice == 2 ^ s && q % 2 == 1)
  (if up then q + 1 else q) * 2 ^ s

/-- How many significant bits `n` has. -/
def bitLength (n : Nat) : Nat := if n = 0 then 0 else n.log2 + 1

/-- A number rounded to `p` significant bits, to nearest, ties to even. -/
def BinFrac.round (p : Nat) (x : BinFrac) : BinFrac :=
  { x with num := x.num.sign * (roundLow (bitLength x.num.natAbs - p) x.num.natAbs : Nat) }

/-- `fl64`: rounding to binary64 (00_scope.md R11). -/
def fl64 (x : BinFrac) : BinFrac := x.round 53

/-- `fl32`: rounding to binary32 (R11). -/
def fl32 (x : BinFrac) : BinFrac := x.round 24

/-- Exact product with an integer. -/
def BinFrac.times (x : BinFrac) (n : Nat) : BinFrac := { x with num := x.num * n }

/-- Exact quotient by `65536.0`. -/
def BinFrac.over65536 (x : BinFrac) : BinFrac := { x with scale := x.scale + 16 }

/-- Exact difference. -/
def BinFrac.minus (x y : BinFrac) : BinFrac :=
  ⟨x.num * (2 ^ y.scale : Nat) - y.num * (2 ^ x.scale : Nat), x.scale + y.scale⟩

/-- The quotient `num / den` rounded to `p` significant bits (at most 55, `den` below 2^24): a quotient of more than 56 bits with
a last bit that tells an inexact one, rounded. -/
def roundQuotient (p : Nat) (num : Int) (den : Nat) : BinFrac :=
  let a := num.natAbs * 2 ^ 80
  let sticky := if a % den = 0 then 0 else 1
  BinFrac.round p ⟨num.sign * (2 * (a / den) + sticky : Nat), 81⟩

/-- HA's literal 175.72 in binary64 (R107). -/
def c1 : BinFrac := roundQuotient 53 17572 100

/-- HA's literal 46.85 in binary64 (R107). -/
def c2 : BinFrac := roundQuotient 53 4685 100

/-- HA's expression `((slope * raw) / 65536.0) - offset`, one rounding after each operation, in the order the parentheses
give (R106, R107). -/
def haExpression (slope offset : BinFrac) (raw : Half) : BinFrac :=
  fl64 ((fl64 (fl64 (slope.times raw.toNat)).over65536).minus offset)

/-- `F64_RH(raw)` (R106). -/
def f64Rh (raw : Half) : BinFrac := haExpression ⟨125, 0⟩ ⟨6, 0⟩ raw

/-- `F64_T(raw)` (R107). -/
def f64T (raw : Half) : BinFrac := haExpression c1 c2 raw

/-- The interchange bits of a number that has at most `frac + 1` significant bits and a normal exponent: sign, biased
exponent, fraction; zero is +0. -/
def BinFrac.encode (expBits frac bias : Nat) (x : BinFrac) : Nat :=
  let n := x.num.natAbs
  if n = 0 then 0
  else
    let e := n.log2
    let sign := if x.num < 0 then 1 else 0
    (sign * 2 ^ expBits + (e + bias - x.scale)) * 2 ^ frac + (n * 2 ^ frac / 2 ^ e - 2 ^ frac)

/-- The bits of a binary64 number. -/
def bits64 (x : BinFrac) : BitVec 64 := BitVec.ofNat 64 (x.encode 11 52 1023)

/-- The bits of a binary32 number. -/
def bits32 (x : BinFrac) : BitVec 32 := BitVec.ofNat 32 (x.encode 8 23 127)

/-- HOST. The float32 number `readHumidity` returns for a raw value: `fl32(F64_RH(v))` (R109, 44 R122). -/
def accessorRh (v : Half) : BitVec 32 := bits32 (fl32 (f64Rh v))

/-- HOST. The float32 number `readTemperature` returns for a raw value: `fl32(F64_T(v))` (R109, 44 R123). -/
def accessorT (v : Half) : BitVec 32 := bits32 (fl32 (f64T v))

/-- HOST. HA's float64 humidity from the block's output: `PHYS / 65536.0`, exact (R108). -/
def f64RhOfPhys (p : Phys) : BinFrac := fl64 ⟨p.toInt, 16⟩

/-- HOST. HA's float64 temperature from the block's output: `PHYS / 6553600.0`, one rounding (R108). -/
def f64TOfPhys (p : Phys) : BinFrac := roundQuotient 53 p.toInt 6553600

end Sys2Proof.Machine
end

