-- ==== Sys2Proof/Machine/Session.lean ====
section
/-! DEFINITION. HOST: the session procedures (44_measurement_paths.md R121 to R126) and the host's other actions. Every free
answer is an argument here; `perform` supplies it from `Config`. A procedure runs to its end in one step: reads are
synchronous and blocking and cannot be cancelled (60_exceptions.md R137, R142; log 6). -/

namespace Sys2Proof.Machine

open Sys2Proof

/-- The command byte `readTemperature` sends (R125). -/
def TemperatureMode.byte : TemperatureMode → Byte
  | .literal => cmdRhHold
  | .corrected => cmdTHold

/-- A read accessor (R122, R123). While not `available` it returns the number 0, with no bus traffic and no command (R124).
Else one transaction; a bus failure is surfaced, with no command and no retry (60_exceptions.md R133); a frame is presented
to the block in the order received and VAL of the response is converted to float32 (R109). -/
def readWith (byte : Byte) (command : Byte → Byte → Byte → Instr) (toFloat : Half → BitVec 32)
    (answer : BusAnswer) (s : State) : Host.Outcome State Fault Refusal :=
  if s.available then
    match answer with
    | .busError => .next ((s.transact byte answer).hand .busFailure)
    | .frame f =>
      match exec (command f.msb f.lsb f.checksum) (s.transact byte answer) with
      | .next t => .next (t.hand (.number (toFloat t.rsp.val)))
      | .fault e => .fault e
      | .refused r => .refused r
  else .next (s.hand (.number 0#32))

/-- `readHumidity()`: 0xE5, then MRH (R122). -/
def readHumidityOn (answer : BusAnswer) (s : State) : Host.Outcome State Fault Refusal :=
  readWith cmdRhHold .mrh accessorRh answer s

/-- `readTemperature()`: TEMPERATURE_COMMAND, then MT (R123, R125). -/
def readTemperatureOn (answer : BusAnswer) (s : State) : Host.Outcome State Fault Refusal :=
  readWith s.temperatureMode.byte .mt accessorT answer s

/-- `initialize()` is called: it suspends while discovery and open complete (R121, 60_exceptions.md R137). One call per session
(91_not_in_source.md N18; log 12). -/
def beginInitialize (s : State) : Host.Outcome State Fault Refusal :=
  if s.init = .notStarted then .next { s with init := .suspended } else .refused .initOutOfOrder

/-- `initialize` returns false and leaves `available` as it is (R121, R131). -/
def initFailed (s : State) : State := { s with init := .finished }.hand (.initDone false)

/-- `initialize` sets `available`, owns the handle and returns true (R121, 10_state.md R31). -/
def initSucceeded (s : State) : State :=
  { s with init := .finished, available := true, busHandle := some ⟨Config.busIdentifier, busAddr⟩ }.hand
    (.initDone true)

/-- The suspended `initialize` resumes: where discovery and open succeeded, one trial transaction with CMD_T_HOLD, of which only
success counts and whose bytes are not looked at (R121; 90_conflicts.md C5). No command is presented to the block. -/
def completeInitializeOn (opened : Bool) (answer : BusAnswer) (s : State) : Host.Outcome State Fault Refusal :=
  if s.init = .suspended then
    if opened then
      match answer with
      | .busError => .next (initFailed (s.transact cmdTHold answer))
      | .frame _ => .next (initSucceeded (s.transact cmdTHold answer))
    else .next (initFailed s)
  else .refused .initOutOfOrder

/-- A suspended `initialize` is abandoned; `available` stays false (60_exceptions.md R142). -/
def abandonInitialize (s : State) : Host.Outcome State Fault Refusal :=
  if s.init = .suspended then .next { s with init := .abandoned } else .refused .initOutOfOrder

/-- The host's process starts again: nothing of the session is kept, the block is not touched (10_state.md R32,
70_reset_and_hazards.md R152; log 13). -/
def startSession (s : State) : State :=
  { s with
    available := false, busHandle := none, init := .notStarted, lastTransaction := none, outcome := none, sampled := none }

/-- A draw of a free value. -/
def State.draw (s : State) : State := { s with draws := s.draws + 1 }

/-- What the host's next action does. -/
def perform (a : HostAction) (s : State) : Host.Outcome State Fault Refusal :=
  match a with
  | .issue c => issue c s
  | .cycle p => clock p s
  | .sampleRsp => .next { s with sampled := some s.rsp.word }
  | .beginInit => beginInitialize s
  | .completeInit => completeInitializeOn (Config.openSucceeds s.draws) (Config.busAnswer (s.draws + 1)) s.draw
  | .abandonInit => abandonInitialize s
  | .readHumidity => readHumidityOn (Config.busAnswer s.draws) s
  | .readTemperature => readTemperatureOn (Config.busAnswer s.draws) s
  | .newSession => .next (startSession s)

end Sys2Proof.Machine
end

