-- ==== Sys2Proof/Machine/Step.lean ====
section
/-! DEFINITION. One step: the host's next action, or one idle clock cycle where the host has none. -/

namespace Sys2Proof.Machine

open Sys2Proof

/-- One step of the machine (log 1, log 4). -/
def step (s : State) : Host.Outcome State Fault Refusal :=
  match s.script with
  | [] => clock PortInputs.idle s
  | a :: rest => perform a { s with script := rest }

/-- `s` with the table's word `w` handed over as what the host issues next (log 2). -/
def State.withFetchWord (s : State) (nbits w : Nat) : State :=
  { s with script := .issue (tableWord nbits w) :: s.script }

end Sys2Proof.Machine
end

