-- ==== Sys2Proof/Machine/Assembler.lean ====
section
/-! DEFINITION. The assembler (30_encoding.md R71, R72): a line of text to an assembler line, and that to a command word. -/

namespace Sys2Proof.Machine

open Sys2Proof

/-- The instruction of a line's mnemonic and operands; none where the line is ill formed. DECH and DECT are DEC with a fixed
adjustment (R72). -/
def AsmLine.instr (l : AsmLine) : Option Instr :=
  if l.wellFormed then
    match l.mnemonic, l.operands with
    | .crcv, [d, k] => some (.crcv (BitVec.ofNat 16 d) (BitVec.ofNat 8 k))
    | .dec, [m, b, k, j] => some (.dec (BitVec.ofNat 8 m) (BitVec.ofNat 8 b) (BitVec.ofNat 8 k) (BitVec.ofNat 8 j))
    | .cvrh, [r] => some (.cvrh (BitVec.ofNat 16 r))
    | .cvt, [r] => some (.cvt (BitVec.ofNat 16 r))
    | .mrh, [m, b, k] => some (.mrh (BitVec.ofNat 8 m) (BitVec.ofNat 8 b) (BitVec.ofNat 8 k))
    | .mt, [m, b, k] => some (.mt (BitVec.ofNat 8 m) (BitVec.ofNat 8 b) (BitVec.ofNat 8 k))
    | .dech, [m, b, k] => some (.dec (BitVec.ofNat 8 m) (BitVec.ofNat 8 b) (BitVec.ofNat 8 k) adjRh)
    | .dect, [m, b, k] => some (.dec (BitVec.ofNat 8 m) (BitVec.ofNat 8 b) (BitVec.ofNat 8 k) adjT)
    | _, _ => none
  else none

/-- The code word a line assembles to (R71). -/
def AsmLine.assemble (l : AsmLine) : Option CodeWord := (AsmLine.instr l).map encode

/-- The value of a hexadecimal digit, either case. -/
def hexDigit (c : Char) : Option Nat :=
  let n := c.toNat
  if 48 ≤ n && n ≤ 57 then some (n - 48)
  else if 65 ≤ n && n ≤ 70 then some (n - 55)
  else if 97 ≤ n && n ≤ 102 then some (n - 87)
  else none

/-- The number the digits spell in base `base`, after `acc`. -/
def digitsFrom (base : Nat) : List Char → Nat → Option Nat
  | [], acc => some acc
  | c :: cs, acc =>
    match hexDigit c with
    | some d => if d < base then digitsFrom base cs (acc * base + d) else none
    | none => none

/-- A number in decimal or `0x` hexadecimal (R71). -/
def parseNumber : List Char → Option Nat
  | [] => none
  | '0' :: 'x' :: c :: cs => digitsFrom 16 (c :: cs) 0
  | c :: cs => digitsFrom 10 (c :: cs) 0

/-- The mnemonic a word spells (R71, R72). -/
def parseMnemonic (cs : List Char) : Option Mnemonic :=
  if cs = ['C', 'R', 'C', 'V'] then some .crcv
  else if cs = ['D', 'E', 'C'] then some .dec
  else if cs = ['C', 'V', 'R', 'H'] then some .cvrh
  else if cs = ['C', 'V', 'T'] then some .cvt
  else if cs = ['M', 'R', 'H'] then some .mrh
  else if cs = ['M', 'T'] then some .mt
  else if cs = ['D', 'E', 'C', 'H'] then some .dech
  else if cs = ['D', 'E', 'C', 'T'] then some .dect
  else none

/-- Blanks between the parts of a line (log 17). -/
def isBlank (c : Char) : Bool := c == ' ' || c == '\t'

/-- The text without its blanks at both ends. -/
def trim (cs : List Char) : List Char :=
  ((cs.dropWhile isBlank).reverse.dropWhile isBlank).reverse

/-- The parts of a text between commas; `part` is the part read so far, reversed. -/
def splitCommas : List Char → List Char → List (List Char)
  | [], part => [part.reverse]
  | c :: cs, part => if c = ',' then part.reverse :: splitCommas cs [] else splitCommas cs (c :: part)

/-- The numbers of a list of texts; none where one of them is none. -/
def parseNumbers : List (List Char) → Option (List Nat)
  | [] => some []
  | p :: ps =>
    match parseNumber (trim p), parseNumbers ps with
    | some n, some ns => some (n :: ns)
    | _, _ => none

/-- One line of text: mnemonic, then operands separated by commas, a `;` starting a comment (R71). A line that holds no command, only
a comment or nothing, gives none, as an ill-formed one does: R71 says nothing of it (log 17, DESIGN CHOICE). -/
def parseLine (cs : List Char) : Option AsmLine :=
  let text := trim (cs.takeWhile (· != ';'))
  match parseMnemonic (text.takeWhile (fun c => !isBlank c)),
      parseNumbers (splitCommas (text.dropWhile (fun c => !isBlank c)) []) with
  | some m, some ops => some ⟨m, ops⟩
  | _, _ => none

/-- The code word of one line of text. -/
def assembleText (cs : List Char) : Option CodeWord :=
  match parseLine cs with
  | some l => AsmLine.assemble l
  | none => none

end Sys2Proof.Machine
end

