-- ==== Sys2Proof/Safety.lean ====
section
/-! DEFINITION. What claims call a legal response register, a sound session, and a good state. -/

namespace Sys2Proof.Safety

open Sys2Proof Sys2Proof.Machine

/-- The values FLG can hold (30_encoding.md R70): 0x00 after reset only, the six others after a command. -/
def legalFlags : List Byte := [0x00#8, 0x01#8, 0x03#8, 0x05#8, 0x09#8, 0x0D#8, 0x19#8]

/-- RSP is legal: FLG is one of the values that can occur; RSP is all zero where VALID = 0 (10_state.md R33) and the illegal
response where ERR = 1 (R66); VAL is ASM where USABLE = 1 and 0 elsewhere (42_measurement_decoder.md R94); the two low bits of
ASM are 0 (R90). -/
def legalRsp (r : Rsp) : Bool :=
  legalFlags.contains r.flg && (r.valid || r == Rsp.zero) && (!r.err || r == illegalRsp)
    && (r.val == if r.usable then r.asm else 0#16) && (r.asm.extractLsb' 0 2 == 0#2)

/-- A command in progress has an edge to come. -/
def legalInFlight : Option InFlight → Bool
  | none => true
  | some f => decide (1 ≤ f.remaining)

/-- The session is sound: the handle is owned exactly while `available`, and `available` is true only after an `initialize` that
ran to its end (10_state.md R31, R32). -/
def soundSession (s : State) : Bool :=
  (s.available == s.busHandle.isSome) && (!s.available || s.init == .finished)

/-- `rsp_valid` is 1 only in a cycle in which RSP holds a command's response and no command is in progress (R30). -/
def soundPorts (s : State) : Bool :=
  !s.rspValid || (s.rsp.valid && s.inflight.isNone)

/-- A good state. -/
def good (s : State) : Bool :=
  legalRsp s.rsp && legalInFlight s.inflight && soundSession s && soundPorts s

/-- A run is safe while every state of it is good; no step of this machine can fault (60_exceptions.md R136). -/
def safeRun : Nat → State → Prop
  | 0, s => good s = true
  | n + 1, s => good s = true ∧ ∀ t, step s = .next t → safeRun n t

end Sys2Proof.Safety
end

