-- ==== Sys2Proof/Certificates/Slice0/Obligations.lean ====
section
/-! DEFINITION. The statements for the provers. Each docstring names the rule of spec/ it formalises; a convention that is
the model's own is named by its log entry. The helpers come first; they restate the rules' own words, without the model's
functions where the rule's words allow it. -/

namespace Sys2Proof.Claims

open Sys2Proof Sys2Proof.Machine

/-- `(M << 8) | (L & 0xFC)` (42_measurement_decoder.md R90), as the mask 0xFFFC on the two bytes joined. -/
def specAsm (m l : Byte) : Half := (m ++ l) &&& 0xFFFC#16

/-- The remainder equals the checksum `k` after adjustment (R92). -/
def specOk (m l k : Byte) : Prop := crc8 (specAsm m l) = k

/-- The value of FLG for a decoded frame: the four outcomes of 42_measurement_decoder.md R93. -/
def specFlg (st ok : Bool) : Byte :=
  match st, ok with
  | false, true => 0x19#8
  | false, false => 0x01#8
  | true, true => 0x0D#8
  | true, false => 0x05#8

/-- VAL of a decoded frame: the assembled value if the status bit is clear and the checksum `k` (after adjustment) fits, else 0. -/
def specVal (m l k : Byte) : Half :=
  if l.getLsbD 1 = false ∧ crc8 (specAsm m l) = k then specAsm m l else 0x0000#16

/-- The response to a frame with the checksum `k` after adjustment, and with PHYS `p`. -/
def specFrameRsp (m l k : Byte) (p : Phys) : Rsp :=
  ⟨specFlg (l.getLsbD 1) (decide (crc8 (specAsm m l) = k)), crc8 (specAsm m l), specAsm m l, specVal m l k, p⟩

/-- `s` after a command whose response is `r`: all of RSP is `r`, `rsp_valid` is 1, `cmd_ready` is 1, all else as before
(10_state.md R24, R30, 60_exceptions.md R136; log 3). -/
def completedWith (s : State) (r : Rsp) : State := { s with rsp := r, rspValid := true, inflight := none }

/-- The command word `w` is answered with the response word `v`, whatever the state. -/
def answers (w : CmdWord) (v : RspWord) : Prop :=
  ∀ s : State, ∃ r : Rsp, r.word = v ∧ issue (.cmd40 w) s = .next (completedWith s r)

/-- OP names one of the six commands. -/
def legalOp (op : Byte) : Prop := 1 ≤ op.toNat ∧ op.toNat ≤ 6

/-- OP names DEC, MRH or MT. -/
def frameOp (op : Byte) : Prop := op = 0x02#8 ∨ op = 0x05#8 ∨ op = 0x06#8

/-- The checksum adjustment of a word that names DEC, MRH or MT: its field A, 0x62, 0x00. -/
def adjustmentOf (w : CmdWord) : Byte :=
  if CmdWord.op w = 0x02#8 then CmdWord.a w else if CmdWord.op w = 0x05#8 then 0x62#8 else 0x00#8

/-- The bits of a command word that are OP or a field its command uses (30_encoding.md R64). -/
def usedBits (op : Byte) : CmdWord :=
  if op = 0x02#8 then 0xFFFFFFFFFF#40
  else if op = 0x01#8 ∨ op = 0x05#8 ∨ op = 0x06#8 then 0xFF00FFFFFF#40
  else if op = 0x03#8 ∨ op = 0x04#8 then 0xFF00FFFF00#40
  else 0xFF00000000#40

/-- The host's part of two states is the same. -/
def sameHost (s t : State) : Prop :=
  t.available = s.available ∧ t.busHandle = s.busHandle ∧ t.init = s.init ∧ t.temperatureMode = s.temperatureMode ∧
    t.lastTransaction = s.lastTransaction ∧ t.outcome = s.outcome ∧ t.sampled = s.sampled ∧ t.draws = s.draws ∧
    t.script = s.script

/-- The block's part of two states is the same. -/
def sameBlock (s t : State) : Prop := t.rsp = s.rsp ∧ t.rspValid = s.rspValid ∧ t.inflight = s.inflight

end Sys2Proof.Claims

open Sys2Proof Sys2Proof.Machine Sys2Proof.Claims Sys2Proof.Safety

/-! ### Reset, clock and handshake -/

/-- 10_state.md R33. The reset state: RSP all zeros with every flag 0, ready, no pulse, nothing to be read out of RSP, and the
host's `available` false. -/
def Obligations.ResetState : Prop :=
  State.reset.rsp.word = 0#80 ∧ State.reset.rsp.valid = false ∧ State.reset.rsp.err = false ∧
    State.reset.rsp.st = false ∧ State.reset.rsp.crcok = false ∧ State.reset.rsp.usable = false ∧
    State.reset.cmdReady = true ∧ State.reset.rspValid = false ∧ State.reset.available = false ∧
    ∀ r : Rsp, r.valid = false → r.reading = none

/-- 70_reset_and_hazards.md R150. A cycle with `rst = 1` gives the block's reset state whatever it was doing and whatever is
presented, and leaves the host alone; and no step but such a cycle takes VALID from 1 to 0. -/
def Obligations.ResetClearsTheBlock : Prop :=
  (∀ (p : PortInputs) (s : State), p.rst = true →
    clock p s = .next { s with rsp := ⟨0#8, 0#8, 0#16, 0#16, 0#32⟩, rspValid := false, inflight := none }) ∧
  (∀ s t : State, step s = .next t → s.rsp.valid = true → t.rsp.valid = false →
    ∃ p rest, s.script = .cycle p :: rest ∧ p.rst = true) ∧
  (∀ (w : CmdWord) (s t : State), issue (.cmd40 w) s = .next t → t.rsp.flg ≠ 0x00#8)

/-- 70_reset_and_hazards.md R151. Reset during a command: the command is abandoned, its response is never written, however many
idle cycles follow, and the state is the one a reset without any command in progress gives. -/
def Obligations.ResetAbandonsTheCommand : Prop :=
  ∀ (p : PortInputs) (s : State) (f : InFlight) (n : Nat), p.rst = true → s.inflight = some f →
    clockAll (p :: List.replicate n PortInputs.idle) s =
      .next { s with rsp := ⟨0#8, 0#8, 0#16, 0#16, 0#32⟩, rspValid := false, inflight := none } ∧
    clock p s = clock p { s with inflight := none }

/-- 70_reset_and_hazards.md R156. A command offered while `cmd_ready = 0` is not accepted and disturbs nothing: the cycle is
exactly the one in which nothing is presented; `cmd_ready` is 0 while a command is in progress. -/
def Obligations.BusyBlockAcceptsNothing : Prop :=
  ∀ (p : PortInputs) (s : State) (f : InFlight), p.rst = false → s.inflight = some f →
    s.cmdReady = false ∧ clock p s = clock PortInputs.idle s

/-- 70_reset_and_hazards.md R161, R157 and 10_state.md R30. While a command is in progress and its last edge has not come, RSP holds the
previous response whole, `rsp_valid` stays 0 and `cmd_ready` stays 0, whatever is offered. With nothing in progress and nothing
offered a cycle only ends the pulse of `rsp_valid` (R30, 60_exceptions.md R141). With nothing in progress the cycle that presents a
command accepts it, and the cycles that follow run up to its response, at which RSP is written, and on from there. How edges are
counted and that LATENCY is `Config.extraLatency w + 1`: log 5, DESIGN CHOICE. The ports after the response: log 3, DEDUCED. -/
def Obligations.ResponseLastsUntilTheNext : Prop :=
  (∀ (ps : List PortInputs) (s : State) (w : CmdWord) (n : Nat), (∀ p ∈ ps, p.rst = false) → ps ≠ [] →
    s.inflight = some ⟨w, n⟩ → ps.length < n →
    clockAll ps s = .next { s with rspValid := false, inflight := some ⟨w, n - ps.length⟩ }) ∧
  (∀ (p : PortInputs) (s : State), s.inflight = none → p.rst = false → p.cmdValid = false →
    clock p s = .next { s with rspValid := false }) ∧
  (∀ (w : CmdWord) (ps : List PortInputs) (s : State), s.inflight = none → (∀ p ∈ ps, p.rst = false) →
    ∃ r : Rsp, issue (.cmd40 w) s = .next (completedWith s r) ∧
      clockAll (⟨false, true, w⟩ :: ps) s =
        if ps.length < Config.extraLatency w then
          .next { s with rspValid := false, inflight := some ⟨w, Config.extraLatency w - ps.length⟩ }
        else clockAll (ps.drop (Config.extraLatency w)) (completedWith s r))

/-- The cycle level refines the transaction level (10_state.md R24, R30, 70_reset_and_hazards.md R156, R161): an accepted command, whatever
is offered in the cycles that follow, ends after LATENCY cycles in exactly the state the transaction gives; a command already
in progress ends with its last edge. LATENCY is `Config.extraLatency w + 1`, the model's parameter (log 5).
That `rsp_valid` is 1 and nothing is in progress afterwards, from every state (R30, 60_exceptions.md R136): log 3, DEDUCED. -/
def Obligations.ClockRefinesTransaction : Prop :=
  (∀ (w : CmdWord) (ps : List PortInputs) (s : State), s.inflight = none → (∀ p ∈ ps, p.rst = false) →
    ps.length = Config.extraLatency w →
    ∃ r : Rsp, issue (.cmd40 w) s = .next (completedWith s r) ∧
      clockAll (⟨false, true, w⟩ :: ps) s = .next (completedWith s r)) ∧
  (∀ (w : CmdWord) (ps : List PortInputs) (s : State), s.inflight = some ⟨w, ps.length⟩ → (∀ p ∈ ps, p.rst = false) →
    ps ≠ [] → clockAll ps s = issue (.cmd40 w) s)

/-! ### One command, one response -/

/-- 10_state.md R24. Executing a command word is one step that always succeeds and writes all of RSP with a value that depends on
the word alone, and changes nothing else but the handshake.
That `rsp_valid` is 1 and nothing is in progress afterwards, from every state (R30, 60_exceptions.md R136): log 3, DEDUCED. -/
def Obligations.OneCommandOneResponse : Prop :=
  ∀ w : CmdWord, ∃ r : Rsp, ∀ s : State, issue (.cmd40 w) s = .next (completedWith s r)

/-- 10_state.md R27's table. VALID is 1 and FLG[7:5] is 0 in every row; a command leaves 0 in every field and flag it does not
produce.
That `rsp_valid` is 1 and nothing is in progress afterwards, from every state (R30, 60_exceptions.md R136): log 3, DEDUCED. -/
def Obligations.FieldsNotProducedAreZero : Prop :=
  ∀ (w : CmdWord) (s : State), ∃ r : Rsp, issue (.cmd40 w) s = .next (completedWith s r) ∧
    r.valid = true ∧ r.reserved = 0#3 ∧
    (legalOp (CmdWord.op w) → r.err = false) ∧
    (CmdWord.op w = 0x01#8 → r.st = false ∧ r.usable = false ∧ r.asm = 0#16 ∧ r.val = 0#16 ∧ r.phys = 0#32) ∧
    (CmdWord.op w = 0x02#8 → r.phys = 0#32) ∧
    (CmdWord.op w = 0x03#8 ∨ CmdWord.op w = 0x04#8 →
      r.st = false ∧ r.crcok = false ∧ r.usable = false ∧ r.rem = 0#8 ∧ r.asm = 0#16 ∧ r.val = 0#16) ∧
    (¬ legalOp (CmdWord.op w) → r.err = true ∧ r.st = false ∧ r.crcok = false ∧ r.usable = false ∧
      r.rem = 0#8 ∧ r.asm = 0#16 ∧ r.val = 0#16 ∧ r.phys = 0#32)

/-- 10_state.md R23. What each flag of a response means; none of them depends on the state; all are 0 after reset.
That `rsp_valid` is 1 and nothing is in progress afterwards, from every state (R30, 60_exceptions.md R136): log 3, DEDUCED. -/
def Obligations.FlagMeanings : Prop :=
  (∀ w : CmdWord, ∃ r : Rsp, (∀ s : State, issue (.cmd40 w) s = .next (completedWith s r)) ∧
    r.valid = true ∧
    (r.err = true ↔ ¬ legalOp (CmdWord.op w)) ∧
    (r.st = true ↔ frameOp (CmdWord.op w) ∧ (CmdWord.l w).getLsbD 1 = true) ∧
    (r.crcok = true ↔
      (CmdWord.op w = 0x01#8 ∧ crc8 (CmdWord.m w ++ CmdWord.l w) = CmdWord.c w) ∨
      (frameOp (CmdWord.op w) ∧
        crc8 (specAsm (CmdWord.m w) (CmdWord.l w)) = CmdWord.c w ^^^ adjustmentOf w)) ∧
    (r.usable = true ↔ frameOp (CmdWord.op w) ∧ r.st = false ∧ r.crcok = true) ∧
    r.reserved = 0#3) ∧
  State.reset.rsp.flg = 0x00#8

/-- 30_encoding.md R70. RSP is `FLG ++ REM ++ ASM ++ VAL ++ PHYS`, FLG is `0b000 ++ USABLE ++ CRCOK ++ ST ++ ERR ++ VALID`, a
negative PHYS is two's complement, and after a command FLG is one of six values, 0x00 being reset's alone.
That `rsp_valid` is 1 and nothing is in progress afterwards, from every state (R30, 60_exceptions.md R136): log 3, DEDUCED. -/
def Obligations.ResponsePacking : Prop :=
  (∀ r : Rsp, r.word.extractLsb' 72 8 = r.flg ∧ r.word.extractLsb' 64 8 = r.rem ∧ r.word.extractLsb' 48 16 = r.asm ∧
    r.word.extractLsb' 32 16 = r.val ∧ r.word.extractLsb' 0 32 = r.phys ∧ Rsp.ofWord r.word = r) ∧
  (∀ r : Rsp, r.flg = r.reserved ++ BitVec.ofBool r.usable ++ BitVec.ofBool r.crcok ++ BitVec.ofBool r.st ++
    BitVec.ofBool r.err ++ BitVec.ofBool r.valid) ∧
  BitVec.ofInt 32 (-393216) = 0xFFFA0000#32 ∧
  (∀ (w : CmdWord) (s : State), ∃ r : Rsp, issue (.cmd40 w) s = .next (completedWith s r) ∧
    (r.flg = 0x01#8 ∨ r.flg = 0x03#8 ∨ r.flg = 0x05#8 ∨ r.flg = 0x09#8 ∨ r.flg = 0x0D#8 ∨ r.flg = 0x19#8)) ∧
  State.reset.rsp.flg = 0x00#8

/-- 30_encoding.md R66. An illegal command word, whatever its other fields hold, is answered with FLG = 0x03 and zeros; nothing
traps or halts, and the next command executes as it would have without it.
That `rsp_valid` is 1 and nothing is in progress afterwards, from every state (R30, 60_exceptions.md R136): log 3, DEDUCED. -/
def Obligations.IllegalWordIsAnswered : Prop :=
  ∀ (w : CmdWord) (s : State), (CmdWord.op w).toNat = 0 ∨ 7 ≤ (CmdWord.op w).toNat →
    decodeCommand w = .error (.illegalOpcode (CmdWord.op w)) ∧
    issue (.cmd40 w) s = .next (completedWith s ⟨0x03#8, 0#8, 0#16, 0#16, 0#32⟩) ∧
    (⟨0x03#8, 0#8, 0#16, 0#16, 0#32⟩ : Rsp).word = 0x03000000000000000000#80 ∧
    ∀ v : CmdWord, issue (.cmd40 v) (completedWith s ⟨0x03#8, 0#8, 0#16, 0#16, 0#32⟩) = issue (.cmd40 v) s

/-- 30_encoding.md R67. Two command words that agree on OP and on the used fields are answered alike in every state. -/
def Obligations.IgnoredFieldsHaveNoEffect : Prop :=
  ∀ (w v : CmdWord) (s : State), CmdWord.op w = CmdWord.op v →
    w &&& usedBits (CmdWord.op w) = v &&& usedBits (CmdWord.op v) →
    issue (.cmd40 w) s = issue (.cmd40 v) s

/-- 30_encoding.md R61. Bit 0 of `lsb` has no effect on anything. -/
def Obligations.BitZeroHasNoEffect : Prop :=
  ∀ (m l c a : Byte) (s : State),
    exec (.dec m (l ^^^ 0x01#8) c a) s = exec (.dec m l c a) s ∧
    exec (.mrh m (l ^^^ 0x01#8) c) s = exec (.mrh m l c) s ∧
    exec (.mt m (l ^^^ 0x01#8) c) s = exec (.mt m l c) s

/-! ### Encodings -/

/-- 30_encoding.md R65. OP selects the command by its full 8 bits: a word decodes exactly when OP is one of the six values, to an
instruction whose row of the opcode table it matches. -/
def Obligations.OpcodeSelectsTheRow : Prop :=
  (∀ (w : CmdWord) (i : Instr), decodeCommand w = .ok i →
    i.row.width = 40 ∧ i.row.mask = 0xFF00000000 ∧ i.row.matchBits = (CmdWord.op w).toNat <<< 32 ∧
      w.toNat &&& i.row.mask = i.row.matchBits) ∧
  (∀ w : CmdWord, (∃ i, decodeCommand w = .ok i) ↔ legalOp (CmdWord.op w)) ∧
  (∀ w : CmdWord, ¬ legalOp (CmdWord.op w) → decodeCommand w = .error (.illegalOpcode (CmdWord.op w)))

/-- Decode and encode agree (30_encoding.md R63, R64, R68, R73): for every instruction, with every operand at every value, as a code
word, as bytes, and as the opcode table's word. -/
def Obligations.DecodeOfEncode : Prop :=
  ∀ i : Instr, decode (encode i) = .ok i ∧ decodeBytes (encodeBytes i) = .ok i ∧
    decodeTableWord (encode i).nbits (encode i).value = some i

/-- Encode of decode: a legal command word comes back with its ignored fields zero (30_encoding.md R64, R67, R71). -/
def Obligations.EncodeOfDecode : Prop :=
  ∀ (w : CmdWord) (i : Instr), decodeCommand w = .ok i → encode i = .cmd40 (w &&& usedBits (CmdWord.op w))

/-- Decoding is right on words written out from 30_encoding.md R63, R65 and R73, one for each row. -/
def Obligations.DecodingOfWrittenWords : Prop :=
  decodeTableWord 40 0x0100F16A5C = some (.crcv 0xF16A#16 0x5C#8) ∧
  decodeTableWord 40 0x0262016BDA = some (.dec 0x01#8 0x6B#8 0xDA#8 0x62#8) ∧
  decodeTableWord 40 0x03FF8001FF = some (.cvrh 0x8001#16) ∧
  decodeTableWord 40 0x04FF8001FF = some (.cvt 0x8001#16) ∧
  decodeTableWord 40 0x05FF7F0280 = some (.mrh 0x7F#8 0x02#8 0x80#8) ∧
  decodeTableWord 40 0x06FF7F0280 = some (.mt 0x7F#8 0x02#8 0x80#8) ∧
  decodeTableWord 8 0xE5 = some .busRhHold ∧ decodeTableWord 8 0xE3 = some .busTHold ∧
  decodeTableWord 40 0x0000000000 = none ∧ decodeTableWord 40 0x8100000000 = none ∧
  decodeTableWord 40 0xE500000000 = none ∧ decodeTableWord 40 0x0700000000 = none

/-- 20_memory.md R41's byte order: over a byte-wide path the most significant byte goes first, OP, A, M, L, C for a command and FLG,
REM, ASM, VAL, PHYS for a response; and the bytes of a command give the command word back. -/
def Obligations.MostSignificantByteFirst : Prop :=
  (∀ op a m l c : Byte, codeWordOfBytes [op, a, m, l, c] = .ok (.cmd40 (op ++ a ++ m ++ l ++ c)) ∧
    (CodeWord.cmd40 (op ++ a ++ m ++ l ++ c)).bytes = [op, a, m, l, c]) ∧
  (∀ w : CodeWord, codeWordOfBytes w.bytes = .ok w) ∧
  (∀ r : Rsp, r.bytes = (List.range 10).map (fun k => r.word.extractLsb' (8 * (9 - k)) 8))

/-- The assembler's table (30_encoding.md R71), the two pseudo-instructions (R72), and an ill-formed line assembles to nothing:
that last clause is log 17, DESIGN CHOICE. -/
def Obligations.AssemblerTable : Prop :=
  (∀ d k : Nat, d < 2 ^ 16 → k < 2 ^ 8 → Machine.AsmLine.assemble ⟨.crcv, [d, k]⟩ =
    some (.cmd40 (0x01#8 ++ 0x00#8 ++ BitVec.ofNat 16 d ++ BitVec.ofNat 8 k))) ∧
  (∀ m l k j : Nat, m < 2 ^ 8 → l < 2 ^ 8 → k < 2 ^ 8 → j < 2 ^ 8 → Machine.AsmLine.assemble ⟨.dec, [m, l, k, j]⟩ =
    some (.cmd40 (0x02#8 ++ BitVec.ofNat 8 j ++ BitVec.ofNat 8 m ++ BitVec.ofNat 8 l ++ BitVec.ofNat 8 k))) ∧
  (∀ r : Nat, r < 2 ^ 16 →
    Machine.AsmLine.assemble ⟨.cvrh, [r]⟩ = some (.cmd40 (0x03#8 ++ 0x00#8 ++ BitVec.ofNat 16 r ++ 0x00#8)) ∧
    Machine.AsmLine.assemble ⟨.cvt, [r]⟩ = some (.cmd40 (0x04#8 ++ 0x00#8 ++ BitVec.ofNat 16 r ++ 0x00#8))) ∧
  (∀ m l k : Nat, m < 2 ^ 8 → l < 2 ^ 8 → k < 2 ^ 8 →
    Machine.AsmLine.assemble ⟨.mrh, [m, l, k]⟩ =
      some (.cmd40 (0x05#8 ++ 0x00#8 ++ BitVec.ofNat 8 m ++ BitVec.ofNat 8 l ++ BitVec.ofNat 8 k)) ∧
    Machine.AsmLine.assemble ⟨.mt, [m, l, k]⟩ =
      some (.cmd40 (0x06#8 ++ 0x00#8 ++ BitVec.ofNat 8 m ++ BitVec.ofNat 8 l ++ BitVec.ofNat 8 k))) ∧
  (∀ m l k : Nat,
    Machine.AsmLine.assemble ⟨.dech, [m, l, k]⟩ = Machine.AsmLine.assemble ⟨.dec, [m, l, k, 0x62]⟩ ∧
    Machine.AsmLine.assemble ⟨.dect, [m, l, k]⟩ = Machine.AsmLine.assemble ⟨.dec, [m, l, k, 0x00]⟩) ∧
  (∀ l : AsmLine, l.wellFormed = false → Machine.AsmLine.assemble l = none)

/-! ### CRCValidator -/

/-- 41_crc_validator.md R80. `crc8` is the loop: the dividend is `data` shifted left by 8, and for i = 0 to 15, where bit 23 - i is 1,
the generator shifted left by 23 - i - 8 is XORed; the result is the low 8 bits. The shifted generator is `0x988000 >> i`. -/
def Obligations.CrcIsTheLoop : Prop :=
  (∀ data : Half, crc8 data =
    ((List.range 16).foldl (fun (d : Dividend) i => if d.getLsbD (23 - i) then d ^^^ (0x000131#24 <<< (23 - i - 8)) else d)
      (data.setWidth 24 <<< 8)).setWidth 8) ∧
  ∀ i : Nat, i < 16 → 0x000131#24 <<< (23 - i - 8) = 0x988000#24 >>> i

/-- 41_crc_validator.md R83. The loop's invariant: after `n` iterations the top `n` bits of the dividend are 0; an iteration changes no
bit above the one it tests and clears that one, and changes nothing where it is 0; after 16 iterations the dividend is its low 8 bits, the remainder. -/
def Obligations.CrcLoopClearsFromTheTop : Prop :=
  (∀ (data : Half) (n p : Nat), n ≤ 16 → 24 - n ≤ p → p < 24 → (crcLoop n (data ++ 0#8)).getLsbD p = false) ∧
  (∀ (d : Dividend) (i p : Nat), i < 16 → 23 - i < p → (crcStep d i).getLsbD p = d.getLsbD p) ∧
  (∀ (d : Dividend) (i : Nat), i < 16 → (crcStep d i).getLsbD (23 - i) = false) ∧
  (∀ (d : Dividend) (i : Nat), i < 16 → d.getLsbD (23 - i) = false → crcStep d i = d) ∧
  (∀ data : Half, crcLoop 16 (data ++ 0#8) = (crc8 data).setWidth 24)

/-- 41_crc_validator.md R84, linearity and the table: `crc8` of a value is the XOR of the table's entries for its 1 bits. -/
def Obligations.CrcIsLinear : Prop :=
  (∀ a b : Half, crc8 (a ^^^ b) = crc8 a ^^^ crc8 b) ∧ crc8 0x0000#16 = 0x00#8 ∧
  ∀ data : Half, crc8 data =
    (List.zipWith (fun k (e : Byte) => if data.getLsbD k then e else 0#8) (List.range 16)
      [0x31#8, 0x62#8, 0xC4#8, 0xB9#8, 0x43#8, 0x86#8, 0x3D#8, 0x7A#8,
       0xF4#8, 0xD9#8, 0x83#8, 0x37#8, 0x6E#8, 0xDC#8, 0x89#8, 0x23#8]).foldl (· ^^^ ·) 0#8

/-- 41_crc_validator.md R84, the polynomial reading: `data(x) * x^8` is a multiple of the generator plus the remainder `crc8 data` of
degree below 8, and that remainder is the only one. -/
def Obligations.CrcIsThePolynomialRemainder : Prop :=
  (∀ data : Half, ∃ q : Half, (data ++ 0#8 : Dividend) = generatorTimes q 16 ^^^ (crc8 data).setWidth 24) ∧
  (∀ (data q : Half) (r : Byte), (data ++ 0#8 : Dividend) = generatorTimes q 16 ^^^ r.setWidth 24 → r = crc8 data)

/-- 41_crc_validator.md R84, the counting: for each remainder and each high byte there is exactly one low byte, so 256 values of `data`
for each remainder. -/
def Obligations.EachRemainderFromOneLowByte : Prop :=
  ∀ r hi : Byte, ∃ lo : Byte, crc8 (hi ++ lo) = r ∧ ∀ lo' : Byte, crc8 (hi ++ lo') = r → lo' = lo

/-- 41_crc_validator.md R86. The shift-register form computes the same function. -/
def Obligations.ShiftRegisterFormAgrees : Prop :=
  ∀ data : Half, crc8 data = crc8ShiftRegister data ∧
    crc8ShiftRegister data = (List.range 16).reverse.foldl
      (fun (c : Byte) k => if c.getLsbD 7 ^^ data.getLsbD k then (c <<< 1) ^^^ 0x31#8 else c <<< 1) 0x00#8

/-- 41_crc_validator.md R82. The command CRCV: its words, its response for every operand in every state, its corner cases and example.
That `rsp_valid` is 1 and nothing is in progress afterwards, from every state (R30, 60_exceptions.md R136): log 3, DEDUCED. -/
def Obligations.CrcvResult : Prop :=
  (∀ a m l c : Byte, decodeCommand (joinCommand 0x01#8 a m l c) = .ok (.crcv (m ++ l) c)) ∧
  (∀ (data : Half) (chk : Byte) (s : State), exec (.crcv data chk) s = .next (completedWith s
    ⟨if crc8 data = chk then 0x09#8 else 0x01#8, crc8 data, 0x0000#16, 0x0000#16, 0x00000000#32⟩)) ∧
  crc8 0x0000#16 = 0x00#8 ∧ crc8 0xFFFF#16 = 0x2D#8 ∧
  answers 0x01006A5CB8#40 0x09B80000000000000000#80 ∧ answers 0x01006A5CB9#40 0x01B80000000000000000#80

/-- 41_crc_validator.md R85. HA's two properties of the validator, and the general one: exactly the true remainder is accepted. -/
def Obligations.ValidatorAcceptsExactlyTheRemainder : Prop :=
  ∀ (data : Half) (s : State),
    (∃ t, exec (.crcv data (crc8 data)) s = .next t ∧ t.rsp.crcok = true) ∧
    (∀ k : Nat, k < 8 → ∃ t, exec (.crcv data (crc8 data ^^^ (1#8 <<< k))) s = .next t ∧ t.rsp.crcok = false) ∧
    (∀ chk : Byte, ∃ t, exec (.crcv data chk) s = .next t ∧ (t.rsp.crcok = true ↔ chk = crc8 data))

/-! ### MeasurementDecoder -/

/-- 42_measurement_decoder.md R90. The assembled value, bit by bit and as arithmetic. -/
def Obligations.AssembledValue : Prop :=
  ∀ m l : Byte,
    (asm16 m l).extractLsb' 8 8 = m ∧ (asm16 m l).extractLsb' 2 6 = l.extractLsb' 2 6 ∧
    (asm16 m l).extractLsb' 0 2 = 0#2 ∧
    (asm16 m l).toNat = 256 * m.toNat + 4 * (l.toNat / 4) ∧ (asm16 m l).toNat % 4 = 0 ∧ asm16 m l ≤ 0xFFFC#16 ∧
    asm16 m l = (m.setWidth 16 <<< 8) + (l &&& 0xFC#8).setWidth 16 ∧
    asm16 m l = (m.setWidth 16 <<< 8) ^^^ (l &&& 0xFC#8).setWidth 16

/-- 42_measurement_decoder.md R93. The command DEC: its words, its response for every operand in every state, its corner cases and example.
That `rsp_valid` is 1 and nothing is in progress afterwards, from every state (R30, 60_exceptions.md R136): log 3, DEDUCED. -/
def Obligations.DecResult : Prop :=
  (∀ a m l c : Byte, decodeCommand (joinCommand 0x02#8 a m l c) = .ok (.dec m l c a)) ∧
  (∀ (m l c a : Byte) (s : State),
    exec (.dec m l c a) s = .next (completedWith s (specFrameRsp m l (c ^^^ a) 0x00000000#32))) ∧
  (∀ m l c a : Byte, crc8 (specAsm m l) = c ^^^ a ↔ crc8 (specAsm m l) ^^^ c ^^^ a = 0#8) ∧
  answers 0x0200000000#40 0x19000000000000000000#80 ∧
  answers 0x02626A5CDA#40 0x19B86A5C6A5C00000000#80 ∧ answers 0x02626A5EDA#40 0x0DB86A5C000000000000#80

/-- 42_measurement_decoder.md R97. HA's properties of the decoder. -/
def Obligations.DecoderProperties : Prop :=
  (∀ (m l c a : Byte) (s : State), l.getLsbD 1 = true →
    ∃ t, exec (.dec m l c a) s = .next t ∧ t.rsp.st = true ∧ t.rsp.usable = false ∧ t.rsp.val = 0#16) ∧
  (∀ (m l a : Byte) (s : State), l.getLsbD 1 = false →
    ∃ t, exec (.dec m l (crc8 (asm16 m l) ^^^ a) a) s = .next t ∧ t.rsp.usable = true ∧
      t.rsp.val = asm16 m l ∧ t.rsp.asm = asm16 m l) ∧
  (∀ (m l c a : Byte) (s : State), l.getLsbD 1 = false → c ≠ crc8 (asm16 m l) ^^^ a →
    ∃ t, exec (.dec m l c a) s = .next t ∧ t.rsp.crcok = false ∧ t.rsp.usable = false ∧ t.rsp.val = 0#16)

/-- 42_measurement_decoder.md R96. The adjustment 0x62 is the status bit's own remainder: the humidity path accepts exactly the true
remainder of the value with bit 1 set, the temperature path that of the value with bits 1 and 0 clear. -/
def Obligations.AdjustmentIsTheStatusBitsRemainder : Prop :=
  crc8 0x0002#16 = 0x62#8 ∧
  (∀ m l : Byte, crc8 (asm16 m l) ^^^ 0x62#8 = crc8 (asm16 m l ||| 0x0002#16)) ∧
  (∀ (m l c : Byte) (s : State), ∃ t, exec (.mrh m l c) s = .next t ∧
    (t.rsp.crcok = true ↔ c = crc8 (asm16 m l ||| 0x0002#16))) ∧
  (∀ (m l c : Byte) (s : State), ∃ t, exec (.mt m l c) s = .next t ∧ (t.rsp.crcok = true ↔ c = crc8 (asm16 m l)))

/-- 60_exceptions.md R132. The two causes that disqualify a reading, told apart by the flags, never an error; ASM and REM still hold what
was judged; on a path command VAL, 0 then, is converted. -/
def Obligations.DisqualificationCauses : Prop :=
  ∀ (m l c a : Byte) (i : Instr) (s : State),
    (i = .dec m l c a ∨ (i = .mrh m l c ∧ a = 0x62#8) ∨ (i = .mt m l c ∧ a = 0x00#8)) →
    ∃ t, exec i s = .next t ∧ t.rsp.err = false ∧ t.rsp.asm = asm16 m l ∧ t.rsp.rem = crc8 (asm16 m l) ∧
      (i = .mrh m l c → t.rsp.phys = rhQ16 t.rsp.val) ∧ (i = .mt m l c → t.rsp.phys = tQ16 t.rsp.val) ∧
      (l.getLsbD 1 = false → crc8 (asm16 m l) = c ^^^ a → t.rsp.flg = 0x19#8 ∧ t.rsp.val = asm16 m l) ∧
      (l.getLsbD 1 = false → crc8 (asm16 m l) ≠ c ^^^ a → t.rsp.flg = 0x01#8 ∧ t.rsp.val = 0#16) ∧
      (l.getLsbD 1 = true → crc8 (asm16 m l) = c ^^^ a → t.rsp.flg = 0x0D#8 ∧ t.rsp.val = 0#16) ∧
      (l.getLsbD 1 = true → crc8 (asm16 m l) ≠ c ^^^ a → t.rsp.flg = 0x05#8 ∧ t.rsp.val = 0#16)

/-! ### UnitConverter -/

/-- 43_unit_converter.md R100. Relative humidity in percent as Q16: the integer, and the number meant, exactly HA's formula. -/
def Obligations.HumidityFormula : Prop :=
  ∀ raw : Half, (rhQ16 raw).toInt = 125 * (raw.toNat : Int) - 393216 ∧
    ((rhQ16 raw).toInt : ℚ) / 65536 = 125 * (raw.toNat : ℚ) / 65536 - 6

/-- 43_unit_converter.md R101. Temperature in hundredths of a degree as Q16: the integer, and the number meant, exactly HA's formula
with its decimals read exactly. -/
def Obligations.TemperatureFormula : Prop :=
  ∀ raw : Half, (tQ16 raw).toInt = 17572 * (raw.toNat : Int) - 307036160 ∧
    ((tQ16 raw).toInt : ℚ) / 6553600 = (17572 / 100) * (raw.toNat : ℚ) / 65536 - 4685 / 100

/-- 43_unit_converter.md R102. The command CVRH: its words, its response, the sign and the 100 percent points, its example.
That `rsp_valid` is 1 and nothing is in progress afterwards, from every state (R30, 60_exceptions.md R136): log 3, DEDUCED. -/
def Obligations.CvrhResult : Prop :=
  (∀ a m l c : Byte, decodeCommand (joinCommand 0x03#8 a m l c) = .ok (.cvrh (m ++ l))) ∧
  (∀ (raw : Half) (s : State), exec (.cvrh raw) s = .next (completedWith s
    ⟨0x01#8, 0x00#8, 0x0000#16, 0x0000#16, BitVec.ofInt 32 (125 * (raw.toNat : Int) - 393216)⟩)) ∧
  (∀ raw : Half, ((rhQ16 raw).toInt < 0 ↔ raw.toNat ≤ 3145) ∧ (0 < (rhQ16 raw).toInt ↔ 3146 ≤ raw.toNat) ∧
    (rhQ16 raw).toInt ≠ 0 ∧ (100 * 65536 ≤ (rhQ16 raw).toInt ↔ 55575 ≤ raw.toNat)) ∧
  answers 0x0300000000#40 0x010000000000FFFA0000#80 ∧ answers 0x0300FFFF00#40 0x0100000000000076FF83#80 ∧
  answers 0x03006A5C00#40 0x010000000000002DEEEC#80

/-- 43_unit_converter.md R103. The command CVT: its words, its response, the sign points, its corner cases and example.
That `rsp_valid` is 1 and nothing is in progress afterwards, from every state (R30, 60_exceptions.md R136): log 3, DEDUCED. -/
def Obligations.CvtResult : Prop :=
  (∀ a m l c : Byte, decodeCommand (joinCommand 0x04#8 a m l c) = .ok (.cvt (m ++ l))) ∧
  (∀ (raw : Half) (s : State), exec (.cvt raw) s = .next (completedWith s
    ⟨0x01#8, 0x00#8, 0x0000#16, 0x0000#16, BitVec.ofInt 32 (17572 * (raw.toNat : Int) - 307036160)⟩)) ∧
  (∀ raw : Half, ((tQ16 raw).toInt < 0 ↔ raw.toNat ≤ 17473) ∧ (0 < (tQ16 raw).toInt ↔ 17474 ≤ raw.toNat) ∧
    (tQ16 raw).toInt ≠ 0) ∧
  answers 0x0400000000#40 0x010000000000EDB30000#80 ∧ answers 0x0400FFFF00#40 0x0100000000003256BB5C#80 ∧
  answers 0x0400800000#40 0x01000000000010050000#80 ∧ answers 0x0400746800#40 0x0100000000000CE932A0#80

/-- 43_unit_converter.md R104. No overflow: the products and both results stay in their ranges, which are reached. -/
def Obligations.ConverterNeverOverflows : Prop :=
  (∀ raw : Half, 125 * raw.toNat ≤ 8191875 ∧ 17572 * raw.toNat ≤ 1151581020 ∧
    -393216 ≤ (rhQ16 raw).toInt ∧ (rhQ16 raw).toInt ≤ 7798659 ∧
    -307036160 ≤ (tQ16 raw).toInt ∧ (tQ16 raw).toInt ≤ 844544860 ∧
    (rhQ16 raw).toInt = 125 * (raw.toNat : Int) - 393216 ∧ (tQ16 raw).toInt = 17572 * (raw.toNat : Int) - 307036160) ∧
  (rhQ16 0#16).toInt = -393216 ∧ (rhQ16 0xFFFF#16).toInt = 7798659 ∧
  (tQ16 0#16).toInt = -307036160 ∧ (tQ16 0xFFFF#16).toInt = 844544860

/-- 43_unit_converter.md R105. Both functions are strictly increasing, each step of `raw` adding 125 and 17572, so
neither clamps. -/
def Obligations.ConverterIsStrictlyIncreasing : Prop :=
  ∀ a b : Half, a.toNat < b.toNat →
    (rhQ16 b).toInt - (rhQ16 a).toInt = 125 * ((b.toNat : Int) - a.toNat) ∧ (rhQ16 a).toInt < (rhQ16 b).toInt ∧
    (tQ16 b).toInt - (tQ16 a).toInt = 17572 * ((b.toNat : Int) - a.toNat) ∧ (tQ16 a).toInt < (tQ16 b).toInt

/-- 43_unit_converter.md R106, R108, R109. HA's humidity expression in binary64 is exact at each of its three operations, for every raw value,
and so are the narrowing to binary32 and the value a host computes from PHYS. That binary64 rounds as it does: log 15. -/
def Obligations.HumidityInBinary64IsExact : Prop :=
  ∀ raw : Half,
    fl64 ⟨125 * (raw.toNat : Int), 0⟩ = ⟨125 * (raw.toNat : Int), 0⟩ ∧
    fl64 ⟨125 * (raw.toNat : Int), 16⟩ = ⟨125 * (raw.toNat : Int), 16⟩ ∧
    f64Rh raw = ⟨125 * (raw.toNat : Int) - 393216, 16⟩ ∧ f64Rh raw = ⟨(rhQ16 raw).toInt, 16⟩ ∧
    fl32 (f64Rh raw) = f64Rh raw ∧ f64RhOfPhys (rhQ16 raw) = f64Rh raw

/-- Rounding to `p` bits is to nearest, ties to even (00_scope.md R11, from general knowledge: log 15): the result is a multiple of the
last kept place, at most half a place away, and even in that place where it is exactly half a place away; a number of at most
`p` bits stays. -/
def Obligations.RoundingIsToNearestEven : Prop :=
  ∀ p n : Nat,
    2 ^ (bitLength n - p) ∣ roundLow (bitLength n - p) n ∧
    2 * n ≤ 2 * roundLow (bitLength n - p) n + 2 ^ (bitLength n - p) ∧
    2 * roundLow (bitLength n - p) n ≤ 2 * n + 2 ^ (bitLength n - p) ∧
    (bitLength n > p → (2 * n = 2 * roundLow (bitLength n - p) n + 2 ^ (bitLength n - p) ∨
      2 * roundLow (bitLength n - p) n = 2 * n + 2 ^ (bitLength n - p)) →
      roundLow (bitLength n - p) n / 2 ^ (bitLength n - p) % 2 = 0) ∧
    (n < 2 ^ p → roundLow (bitLength n - p) n = n)

/-- 43_unit_converter.md R107 and 95_test_vectors.md part 6.1 on the two literals and on chosen raw values: bit patterns of c1, c2, F64_T and
of the accessors' float32 numbers. From general knowledge: log 15. -/
def Obligations.FloatReferencePatterns : Prop :=
  bits64 c1 = 0x4065F70A3D70A3D7#64 ∧ bits64 c2 = 0x40476CCCCCCCCCCD#64 ∧
  bits64 (f64T 0x0000#16) = 0xC0476CCCCCCCCCCD#64 ∧ bits64 (f64T 0x7468#16) = 0x404086A733333333#64 ∧
  bits64 (f64T 0x7C80#16) = 0x40434DC51EB851EB#64 ∧ bits64 (f64Rh 0x6A5C#16) = 0x4046F77600000000#64 ∧
  accessorT 0x0000#16 = 0xC23B6666#32 ∧ accessorT 0xBA8A#16 = 0x42A26217#32 ∧
  accessorRh 0x0000#16 = 0xC0C00000#32 ∧ accessorRh 0xFFFF#16 = 0x42EDFF06#32

/-! ### The two measurement paths -/

/-- 44_measurement_paths.md R115. The command MRH: its words, its response for every operand in every state, its corner cases and example.
That `rsp_valid` is 1 and nothing is in progress afterwards, from every state (R30, 60_exceptions.md R136): log 3, DEDUCED. -/
def Obligations.MrhResult : Prop :=
  (∀ a m l c : Byte, decodeCommand (joinCommand 0x05#8 a m l c) = .ok (.mrh m l c)) ∧
  (∀ (m l c : Byte) (s : State), exec (.mrh m l c) s = .next (completedWith s
    (specFrameRsp m l (c ^^^ 0x62#8)
      (BitVec.ofInt 32 (125 * ((specVal m l (c ^^^ 0x62#8)).toNat : Int) - 393216))))) ∧
  answers 0x0500000000#40 0x010000000000FFFA0000#80 ∧ answers 0x0500000062#40 0x190000000000FFFA0000#80 ∧
  answers 0x05006A5CDA#40 0x19B86A5C6A5C002DEEEC#80

/-- 44_measurement_paths.md R116. The command MT: its words, its response for every operand in every state, its corner cases and example.
That `rsp_valid` is 1 and nothing is in progress afterwards, from every state (R30, 60_exceptions.md R136): log 3, DEDUCED. -/
def Obligations.MtResult : Prop :=
  (∀ a m l c : Byte, decodeCommand (joinCommand 0x06#8 a m l c) = .ok (.mt m l c)) ∧
  (∀ (m l c : Byte) (s : State), exec (.mt m l c) s = .next (completedWith s
    (specFrameRsp m l c (BitVec.ofInt 32 (17572 * ((specVal m l c).toNat : Int) - 307036160))))) ∧
  answers 0x0600000000#40 0x190000000000EDB30000#80 ∧ answers 0x06007468BA#40 0x19BA746874680CE932A0#80

/-- 44_measurement_paths.md R117. Each path command is the composition of the single-unit commands, field by field, whatever the states the
three run in. -/
def Obligations.PathsAreCompositions : Prop :=
  ∀ (m l c : Byte) (s1 s2 s3 : State),
    (∃ r d v, exec (.mrh m l c) s1 = .next r ∧ exec (.dec m l c 0x62#8) s2 = .next d ∧
      exec (.cvrh d.rsp.val) s3 = .next v ∧ r.rsp.flg = d.rsp.flg ∧ r.rsp.rem = d.rsp.rem ∧ r.rsp.asm = d.rsp.asm ∧
      r.rsp.val = d.rsp.val ∧ r.rsp.phys = v.rsp.phys) ∧
    (∃ r d v, exec (.mt m l c) s1 = .next r ∧ exec (.dec m l c 0x00#8) s2 = .next d ∧
      exec (.cvt d.rsp.val) s3 = .next v ∧ r.rsp.flg = d.rsp.flg ∧ r.rsp.rem = d.rsp.rem ∧ r.rsp.asm = d.rsp.asm ∧
      r.rsp.val = d.rsp.val ∧ r.rsp.phys = v.rsp.phys)

/-- 44_measurement_paths.md R118. A disqualified reading is converted, not replaced: PHYS is the conversion of 0 on either path. -/
def Obligations.DisqualifiedReadingIsConverted : Prop :=
  ∀ (m l c : Byte) (s : State),
    (l.getLsbD 1 = true ∨ crc8 (asm16 m l) ≠ c ^^^ 0x62#8 →
      ∃ t, exec (.mrh m l c) s = .next t ∧ t.rsp.val = 0x0000#16 ∧ t.rsp.phys = 0xFFFA0000#32 ∧
        t.rsp.phys.toInt = -6 * 65536) ∧
    (l.getLsbD 1 = true ∨ crc8 (asm16 m l) ≠ c →
      ∃ t, exec (.mt m l c) s = .next t ∧ t.rsp.val = 0x0000#16 ∧ t.rsp.phys = 0xEDB30000#32 ∧
        t.rsp.phys.toInt = -4685 * 65536)

/-! ### The bus and the session (HOST) -/

/-- 30_encoding.md R73. The two bus command bytes: each decodes, is written once and is followed by a read of three bytes, with the
answer `Config.busAnswer` of the count of draws; the block is not touched; any other byte is sent by no model of the host; neither
byte is an opcode of the block. The answer is free (10_state.md R21; log 7, DESIGN CHOICE); that the transaction needs no handle is log 9; that it takes no clock cycle of the block is log 6. -/
def Obligations.BusBytes : Prop :=
  decodeBus 0xE5#8 = .ok .busRhHold ∧ decodeBus 0xE3#8 = .ok .busTHold ∧
  (∀ s : State, exec .busRhHold s =
    .next { s with lastTransaction := some ⟨0xE5#8, 3, Config.busAnswer s.draws⟩, draws := s.draws + 1 }) ∧
  (∀ s : State, exec .busTHold s =
    .next { s with lastTransaction := some ⟨0xE3#8, 3, Config.busAnswer s.draws⟩, draws := s.draws + 1 }) ∧
  (∀ (b : Byte) (s : State), b ≠ 0xE5#8 → b ≠ 0xE3#8 → issue (.bus8 b) s = .refused (.unlistedBusByte b)) ∧
  (∀ w : CmdWord, CmdWord.op w = 0xE5#8 ∨ CmdWord.op w = 0xE3#8 → ∀ i, decodeCommand w ≠ .ok i)

/-- 44_measurement_paths.md R122. `readHumidity` while available: one transaction 0xE5; a frame is presented as MRH in the order received and
VAL of the response is returned as float32; a failure is surfaced, once, with no command and `available` as it was
(60_exceptions.md R133); while not available the number 0, with no transaction and no command (R124).
One step, no clock cycle of the block while the host waits: log 6, DESIGN CHOICE. The ports: log 3, DEDUCED. -/
def Obligations.ReadHumidityProcedure : Prop :=
  ∀ s : State,
    (s.available = false → ∀ a, readHumidityOn a s = .next { s with outcome := some (.number 0#32) }) ∧
    (s.available = true →
      readHumidityOn .busError s = .next { s with
        lastTransaction := some ⟨0xE5#8, 3, .busError⟩, draws := s.draws + 1, outcome := some .busFailure } ∧
      ∀ f : Frame, ∃ r : Rsp,
        exec (.mrh f.msb f.lsb f.checksum) s = .next (completedWith s r) ∧
        readHumidityOn (.frame f) s = .next { completedWith s r with
          lastTransaction := some ⟨0xE5#8, 3, .frame f⟩, draws := s.draws + 1,
          outcome := some (.number (bits32 (fl32 (f64Rh r.val)))) } ∧
        f64Rh r.val = ⟨r.phys.toInt, 16⟩)

/-- 44_measurement_paths.md R123, R125. `readTemperature` while available: one transaction with TEMPERATURE_COMMAND; a frame is presented as MT
and VAL of the response is returned as float32; a failure is surfaced, once, with no command and `available` as it was
(60_exceptions.md R133); while not available the number 0, with no transaction and no command (R124).
That this 0 is +0.0: log 19, DEDUCED. One step, no clock cycle of the block while the host waits: log 6, DESIGN CHOICE. The
ports: log 3, DEDUCED. -/
def Obligations.ReadTemperatureProcedure : Prop :=
  ∀ s : State,
    (s.available = false → ∀ a, readTemperatureOn a s = .next { s with outcome := some (.number 0#32) }) ∧
    (s.available = true →
      readTemperatureOn .busError s = .next { s with
        lastTransaction := some ⟨s.temperatureMode.byte, 3, .busError⟩, draws := s.draws + 1,
        outcome := some .busFailure } ∧
      ∀ f : Frame, ∃ r : Rsp,
        exec (.mt f.msb f.lsb f.checksum) s = .next (completedWith s r) ∧
        readTemperatureOn (.frame f) s = .next { completedWith s r with
          lastTransaction := some ⟨s.temperatureMode.byte, 3, .frame f⟩, draws := s.draws + 1,
          outcome := some (.number (bits32 (fl32 (f64T r.val)))) })

/-- 44_measurement_paths.md R125. TEMPERATURE_COMMAND is 0xE5 in the literal mode and 0xE3 in the corrected one; the literal one is the
default; the block does the same in both; no step changes the mode.
One step for a read: log 6, DESIGN CHOICE. The mode as a field of State: log 10, DEDUCED. -/
def Obligations.TemperatureCommandModes : Prop :=
  TemperatureMode.literal.byte = 0xE5#8 ∧ TemperatureMode.corrected.byte = 0xE3#8 ∧
  State.reset.temperatureMode = .literal ∧
  (∀ (f : Frame) (s : State) (q : TemperatureMode), s.available = true → ∃ t u,
    readTemperatureOn (.frame f) s = .next t ∧
    readTemperatureOn (.frame f) { s with temperatureMode := q } = .next u ∧ sameBlock t u ∧ t.outcome = u.outcome) ∧
  (∀ s t : State, step s = .next t → t.temperatureMode = s.temperatureMode)

/-- 44_measurement_paths.md R121. How a suspended `initialize` ends: without an open device false and no transaction; else one trial
transaction 0xE3, whose bytes do not matter; `available` and the handle only on success; never a command to the block. Abandoned while suspended (60_exceptions.md R142), it
changes nothing else and cannot resume. That a call out of order is refused: log 12. That a failed trial leaves no new handle:
log 14, DEDUCED. What the handle records: log 20, DESIGN CHOICE. One step, no clock cycle of the block: log 6, DESIGN CHOICE. -/
def Obligations.InitializeEnds : Prop :=
  ∀ s : State, s.init = .suspended →
    (∀ a, completeInitializeOn false a s = .next { s with init := .finished, outcome := some (.initDone false) }) ∧
    completeInitializeOn true .busError s = .next { s with
      init := .finished, lastTransaction := some ⟨0xE3#8, 3, .busError⟩, draws := s.draws + 1,
      outcome := some (.initDone false) } ∧
    (∀ f : Frame, completeInitializeOn true (.frame f) s = .next { s with
      init := .finished, available := true, busHandle := some ⟨Config.busIdentifier, 0x0040#16⟩,
      lastTransaction := some ⟨0xE3#8, 3, .frame f⟩, draws := s.draws + 1, outcome := some (.initDone true) }) ∧
    abandonInitialize s = .next { s with init := .abandoned } ∧
    ∀ o a, completeInitializeOn o a { s with init := .abandoned } = .refused .initOutOfOrder

/-- 10_state.md R31. `available` turns true only where an `initialize` completes with a successful open and a successful trial transaction,
never turns back within a session, and the handle is kept; neither is visible to the block. The end of a session is the host's
process ending (R32; log 13). A completion out of order is refused: log 12. The ports after a command: log 3, DEDUCED.
A completion in one step, the trial's free answer and the open's free outcome with their draws: log 6, log 7, log 8, each DESIGN
CHOICE. -/
def Obligations.AvailableOnlyThroughInitialize : Prop :=
  State.reset.available = false ∧
  (∀ s t : State, step s = .next t → s.available = false →
    (¬ ∃ rest, s.script = .completeInit :: rest ∧ s.init = .suspended) → t.available = false) ∧
  (∀ (s : State) (rest : List HostAction), s.script = .completeInit :: rest → s.init = .suspended → s.available = false →
    ∃ t, step s = .next t ∧ (t.available = true ↔
      Config.openSucceeds s.draws = true ∧ ∃ f, Config.busAnswer (s.draws + 1) = .frame f)) ∧
  (∀ s t : State, step s = .next t → s.available = true → (¬ ∃ rest, s.script = .newSession :: rest) →
    t.available = true ∧ (s.busHandle.isSome = true → t.busHandle.isSome = true)) ∧
  (∀ (w : CmdWord) (s : State) (b : Bool) (h : Option BusHandle), ∃ r : Rsp,
    issue (.cmd40 w) s = .next (completedWith s r) ∧
    issue (.cmd40 w) { s with available := b, busHandle := h } =
      .next (completedWith { s with available := b, busHandle := h } r))

/-! ### The whole machine -/

/-- A step runs the decoded instruction (10_state.md R26, 30_encoding.md R73, R74): what the host issues next is decoded and executed on the
state with that entry of the script gone; an empty script is one idle clock cycle (log 1, log 4); every other action of the host
is its procedure (R27, R32, 44_measurement_paths.md R121 to R123, 60_exceptions.md R142), with every free answer drawn from the
configuration (log 7, log 8). An accessor call and a completion in one step: log 6, DESIGN CHOICE. The new session: log 13, DEDUCED.
Calls of `initialize` out of order: log 12, DESIGN CHOICE. The format of a table's word: log 24, DEDUCED. -/
def Obligations.StepRunsTheDecodedInstruction : Prop :=
  (∀ (s : State) (c : CodeWord) (rest : List HostAction) (i : Instr), s.script = .issue c :: rest → decode c = .ok i →
    step s = exec i { s with script := rest }) ∧
  (∀ (s : State) (w : CmdWord) (rest : List HostAction), s.script = .issue (.cmd40 w) :: rest →
    step s = issue (.cmd40 w) { s with script := rest }) ∧
  (∀ s : State, s.script = [] → step s = clock ⟨false, false, 0#40⟩ s) ∧
  (∀ (s : State) (nbits w : Nat) (i : Instr), decodeTableWord nbits w = some i →
    step (s.withFetchWord nbits w) = exec i s) ∧
  ∀ (s : State) (rest : List HostAction),
    (∀ p, s.script = .cycle p :: rest → step s = clock p { s with script := rest }) ∧
    (s.script = .sampleRsp :: rest → step s = .next { s with script := rest, sampled := some s.rsp.word }) ∧
    (s.script = .readHumidity :: rest →
      step s = readHumidityOn (Config.busAnswer s.draws) { s with script := rest }) ∧
    (s.script = .readTemperature :: rest →
      step s = readTemperatureOn (Config.busAnswer s.draws) { s with script := rest }) ∧
    (s.script = .completeInit :: rest → step s = completeInitializeOn (Config.openSucceeds s.draws)
      (Config.busAnswer (s.draws + 1)) { s with script := rest, draws := s.draws + 1 }) ∧
    (s.script = .beginInit :: rest → step s = beginInitialize { s with script := rest }) ∧
    (s.script = .abandonInit :: rest → step s = abandonInitialize { s with script := rest }) ∧
    (s.script = .newSession :: rest → step s = .next (startSession { s with script := rest }))

/-- 60_exceptions.md R140, 10_state.md R27, 70_reset_and_hazards.md R152. A command, and a clock cycle, reset among them, change nothing of the
host; and the host cannot write RSP: reading it, the calls of `initialize`, a bus byte and a new session leave the block as it
is. That a bus transaction and a completion of `initialize` leave `rsp_valid` and the command in progress too as they were: log 6,
DESIGN CHOICE. The new session: log 13, DEDUCED. -/
def Obligations.BlockAndHostKeepApart : Prop :=
  (∀ (w : CmdWord) (s t : State), issue (.cmd40 w) s = .next t → sameHost s t) ∧
  (∀ (p : PortInputs) (s t : State), clock p s = .next t → sameHost s t) ∧
  ∀ (s t : State) (a : HostAction) (rest : List HostAction), s.script = a :: rest → step s = .next t →
    (a = .sampleRsp ∨ a = .beginInit ∨ a = .completeInit ∨ a = .abandonInit ∨ a = .newSession ∨
      ∃ b, a = .issue (.bus8 b)) →
    sameBlock s t ∧ t.script = rest

/-- Nothing traps and nothing stops the block (60_exceptions.md R135, R136, 70_reset_and_hazards.md R161): a step whose next action is a command, a
clock cycle or a read of RSP, or that has no action, always answers a next state. An accessor call in one step: log 6; the idle
cycle: log 4, both DESIGN CHOICE. -/
def Obligations.TheBlockNeverStops : Prop :=
  ∀ s : State, (s.script = [] ∨ (∃ w rest, s.script = .issue (.cmd40 w) :: rest) ∨
    (∃ p rest, s.script = .cycle p :: rest) ∨ (∃ rest, s.script = .sampleRsp :: rest) ∨
    (∃ rest, s.script = .readHumidity :: rest) ∨ (∃ rest, s.script = .readTemperature :: rest)) →
    ∃ t, step s = .next t

/-- 70_reset_and_hazards.md R162. A run of a command list ends in exactly as many steps as the list has commands, and its final state is that of
the last command's word alone, whatever the others were; of the empty list, the state itself. A read accessor ends with a number
or a surfaced bus failure.
That `rsp_valid` is 1 and nothing is in progress afterwards, from every state (R30, 60_exceptions.md R136): log 3, DEDUCED. -/
def Obligations.RunOfACommandList : Prop :=
  (∀ (s : State) (ws : List CmdWord) (w : CmdWord) (rest : List HostAction),
    s.script = (ws ++ [w]).map (fun v => HostAction.issue (.cmd40 v)) ++ rest →
    ∃ r : Rsp, issue (.cmd40 w) s = .next (completedWith s r) ∧
      Host.Core.run core (ws ++ [w]).length s = .next (completedWith { s with script := rest } r)) ∧
  Host.Core.run core 0 State.reset = .next State.reset ∧
  (∀ (s : State) (a : BusAnswer),
    (∃ t o, readHumidityOn a s = .next t ∧ t.outcome = some o ∧ (o = .busFailure ∨ ∃ b, o = .number b)) ∧
    (∃ t o, readTemperatureOn a s = .next t ∧ t.outcome = some o ∧ (o = .busFailure ∨ ∃ b, o = .number b)))

/-- The invariant `good` (10_state.md R22, R23, R30, R31, R33, 30_encoding.md R66, R70, 42_measurement_decoder.md R90, R94) is kept by every step, from
every state that has it. That no handle is owned after a failed trial: log 14, DEDUCED. The ports after a command: log 3,
DEDUCED. One `initialize` in a session: log 12, DESIGN CHOICE. -/
def Obligations.GoodStatesStayGood : Prop :=
  ∀ s t : State, good s = true → step s = .next t → good t = true

/-- The reset state is good. It rests on `busHandle` none at reset: log 11, DESIGN CHOICE. -/
def Obligations.ResetIsGood : Prop := good State.reset = true

/-- RSP is always all zeros or the response of some command word (10_state.md R24, R33, 70_reset_and_hazards.md R150): kept by every step, from every
state that has it. The ports in `answers`: log 3, DEDUCED. -/
def Obligations.RspIsAlwaysAResponse : Prop :=
  ∀ s t : State, (s.rsp.word = 0#80 ∨ ∃ w, answers w s.rsp.word) → step s = .next t →
    (t.rsp.word = 0#80 ∨ ∃ w, answers w t.rsp.word)

/-- 44_measurement_paths.md R121, 60_exceptions.md R137. Beginning `initialize` suspends it and changes nothing else; a second call in a
session is refused (log 12, DESIGN CHOICE); a new session (10_state.md R32; log 13, DEDUCED) has nothing of the old one. -/
def Obligations.InitializeBegins : Prop :=
  ∀ (s : State) (rest : List HostAction),
    (s.script = .beginInit :: rest → s.init = .notStarted →
      step s = .next { s with script := rest, init := .suspended }) ∧
    (s.script = .beginInit :: rest → s.init ≠ .notStarted → step s = .refused .initOutOfOrder) ∧
    (s.script = .newSession :: rest →
      ∃ t, step s = .next t ∧ t.available = false ∧ t.busHandle = none ∧ t.init = .notStarted)
end

