-- ==== Sys2Proof/Laws/State.lean ====
section
/-! SUPPORT. One lemma for each field of the state under each update, true by definition, so that no proof unfolds a record
update. -/

namespace Sys2Proof.Laws

open Sys2Proof Sys2Proof.Machine

@[simp] theorem respond_rsp (s : State) (r : Rsp) : (s.respond r).rsp = r := rfl
@[simp] theorem respond_rspValid (s : State) (r : Rsp) : (s.respond r).rspValid = true := rfl
@[simp] theorem respond_inflight (s : State) (r : Rsp) : (s.respond r).inflight = none := rfl
@[simp] theorem respond_available (s : State) (r : Rsp) : (s.respond r).available = s.available := rfl
@[simp] theorem respond_busHandle (s : State) (r : Rsp) : (s.respond r).busHandle = s.busHandle := rfl
@[simp] theorem respond_init (s : State) (r : Rsp) : (s.respond r).init = s.init := rfl
@[simp] theorem respond_temperatureMode (s : State) (r : Rsp) : (s.respond r).temperatureMode = s.temperatureMode := rfl
@[simp] theorem respond_lastTransaction (s : State) (r : Rsp) : (s.respond r).lastTransaction = s.lastTransaction := rfl
@[simp] theorem respond_outcome (s : State) (r : Rsp) : (s.respond r).outcome = s.outcome := rfl
@[simp] theorem respond_sampled (s : State) (r : Rsp) : (s.respond r).sampled = s.sampled := rfl
@[simp] theorem respond_draws (s : State) (r : Rsp) : (s.respond r).draws = s.draws := rfl
@[simp] theorem respond_script (s : State) (r : Rsp) : (s.respond r).script = s.script := rfl

@[simp] theorem blockReset_rsp (s : State) : s.blockReset.rsp = Rsp.zero := rfl
@[simp] theorem blockReset_rspValid (s : State) : s.blockReset.rspValid = false := rfl
@[simp] theorem blockReset_inflight (s : State) : s.blockReset.inflight = none := rfl
@[simp] theorem blockReset_available (s : State) : s.blockReset.available = s.available := rfl
@[simp] theorem blockReset_busHandle (s : State) : s.blockReset.busHandle = s.busHandle := rfl
@[simp] theorem blockReset_init (s : State) : s.blockReset.init = s.init := rfl
@[simp] theorem blockReset_temperatureMode (s : State) : s.blockReset.temperatureMode = s.temperatureMode := rfl
@[simp] theorem blockReset_lastTransaction (s : State) : s.blockReset.lastTransaction = s.lastTransaction := rfl
@[simp] theorem blockReset_outcome (s : State) : s.blockReset.outcome = s.outcome := rfl
@[simp] theorem blockReset_sampled (s : State) : s.blockReset.sampled = s.sampled := rfl
@[simp] theorem blockReset_draws (s : State) : s.blockReset.draws = s.draws := rfl
@[simp] theorem blockReset_script (s : State) : s.blockReset.script = s.script := rfl

@[simp] theorem transact_rsp (s : State) (b : Byte) (a : BusAnswer) : (s.transact b a).rsp = s.rsp := rfl
@[simp] theorem transact_rspValid (s : State) (b : Byte) (a : BusAnswer) : (s.transact b a).rspValid = s.rspValid := rfl
@[simp] theorem transact_inflight (s : State) (b : Byte) (a : BusAnswer) : (s.transact b a).inflight = s.inflight := rfl
@[simp] theorem transact_available (s : State) (b : Byte) (a : BusAnswer) : (s.transact b a).available = s.available := rfl
@[simp] theorem transact_busHandle (s : State) (b : Byte) (a : BusAnswer) : (s.transact b a).busHandle = s.busHandle := rfl
@[simp] theorem transact_init (s : State) (b : Byte) (a : BusAnswer) : (s.transact b a).init = s.init := rfl
@[simp] theorem transact_temperatureMode (s : State) (b : Byte) (a : BusAnswer) : (s.transact b a).temperatureMode = s.temperatureMode := rfl
@[simp] theorem transact_lastTransaction (s : State) (b : Byte) (a : BusAnswer) : (s.transact b a).lastTransaction = some ⟨b, frameLen, a⟩ := rfl
@[simp] theorem transact_outcome (s : State) (b : Byte) (a : BusAnswer) : (s.transact b a).outcome = s.outcome := rfl
@[simp] theorem transact_sampled (s : State) (b : Byte) (a : BusAnswer) : (s.transact b a).sampled = s.sampled := rfl
@[simp] theorem transact_draws (s : State) (b : Byte) (a : BusAnswer) : (s.transact b a).draws = s.draws + 1 := rfl
@[simp] theorem transact_script (s : State) (b : Byte) (a : BusAnswer) : (s.transact b a).script = s.script := rfl

@[simp] theorem hand_rsp (s : State) (o : CallOutcome) : (s.hand o).rsp = s.rsp := rfl
@[simp] theorem hand_rspValid (s : State) (o : CallOutcome) : (s.hand o).rspValid = s.rspValid := rfl
@[simp] theorem hand_inflight (s : State) (o : CallOutcome) : (s.hand o).inflight = s.inflight := rfl
@[simp] theorem hand_available (s : State) (o : CallOutcome) : (s.hand o).available = s.available := rfl
@[simp] theorem hand_busHandle (s : State) (o : CallOutcome) : (s.hand o).busHandle = s.busHandle := rfl
@[simp] theorem hand_init (s : State) (o : CallOutcome) : (s.hand o).init = s.init := rfl
@[simp] theorem hand_temperatureMode (s : State) (o : CallOutcome) : (s.hand o).temperatureMode = s.temperatureMode := rfl
@[simp] theorem hand_lastTransaction (s : State) (o : CallOutcome) : (s.hand o).lastTransaction = s.lastTransaction := rfl
@[simp] theorem hand_outcome (s : State) (o : CallOutcome) : (s.hand o).outcome = some o := rfl
@[simp] theorem hand_sampled (s : State) (o : CallOutcome) : (s.hand o).sampled = s.sampled := rfl
@[simp] theorem hand_draws (s : State) (o : CallOutcome) : (s.hand o).draws = s.draws := rfl
@[simp] theorem hand_script (s : State) (o : CallOutcome) : (s.hand o).script = s.script := rfl

@[simp] theorem draw_rsp (s : State) : s.draw.rsp = s.rsp := rfl
@[simp] theorem draw_rspValid (s : State) : s.draw.rspValid = s.rspValid := rfl
@[simp] theorem draw_inflight (s : State) : s.draw.inflight = s.inflight := rfl
@[simp] theorem draw_available (s : State) : s.draw.available = s.available := rfl
@[simp] theorem draw_busHandle (s : State) : s.draw.busHandle = s.busHandle := rfl
@[simp] theorem draw_init (s : State) : s.draw.init = s.init := rfl
@[simp] theorem draw_temperatureMode (s : State) : s.draw.temperatureMode = s.temperatureMode := rfl
@[simp] theorem draw_lastTransaction (s : State) : s.draw.lastTransaction = s.lastTransaction := rfl
@[simp] theorem draw_outcome (s : State) : s.draw.outcome = s.outcome := rfl
@[simp] theorem draw_sampled (s : State) : s.draw.sampled = s.sampled := rfl
@[simp] theorem draw_draws (s : State) : s.draw.draws = s.draws + 1 := rfl
@[simp] theorem draw_script (s : State) : s.draw.script = s.script := rfl

@[simp] theorem initFailed_rsp (s : State) : (initFailed s).rsp = s.rsp := rfl
@[simp] theorem initFailed_rspValid (s : State) : (initFailed s).rspValid = s.rspValid := rfl
@[simp] theorem initFailed_inflight (s : State) : (initFailed s).inflight = s.inflight := rfl
@[simp] theorem initFailed_available (s : State) : (initFailed s).available = s.available := rfl
@[simp] theorem initFailed_busHandle (s : State) : (initFailed s).busHandle = s.busHandle := rfl
@[simp] theorem initFailed_init (s : State) : (initFailed s).init = .finished := rfl
@[simp] theorem initFailed_temperatureMode (s : State) : (initFailed s).temperatureMode = s.temperatureMode := rfl
@[simp] theorem initFailed_lastTransaction (s : State) : (initFailed s).lastTransaction = s.lastTransaction := rfl
@[simp] theorem initFailed_outcome (s : State) : (initFailed s).outcome = some (.initDone false) := rfl
@[simp] theorem initFailed_sampled (s : State) : (initFailed s).sampled = s.sampled := rfl
@[simp] theorem initFailed_draws (s : State) : (initFailed s).draws = s.draws := rfl
@[simp] theorem initFailed_script (s : State) : (initFailed s).script = s.script := rfl

@[simp] theorem initSucceeded_rsp (s : State) : (initSucceeded s).rsp = s.rsp := rfl
@[simp] theorem initSucceeded_rspValid (s : State) : (initSucceeded s).rspValid = s.rspValid := rfl
@[simp] theorem initSucceeded_inflight (s : State) : (initSucceeded s).inflight = s.inflight := rfl
@[simp] theorem initSucceeded_available (s : State) : (initSucceeded s).available = true := rfl
@[simp] theorem initSucceeded_busHandle (s : State) : (initSucceeded s).busHandle = some ⟨Config.busIdentifier, busAddr⟩ := rfl
@[simp] theorem initSucceeded_init (s : State) : (initSucceeded s).init = .finished := rfl
@[simp] theorem initSucceeded_temperatureMode (s : State) : (initSucceeded s).temperatureMode = s.temperatureMode := rfl
@[simp] theorem initSucceeded_lastTransaction (s : State) : (initSucceeded s).lastTransaction = s.lastTransaction := rfl
@[simp] theorem initSucceeded_outcome (s : State) : (initSucceeded s).outcome = some (.initDone true) := rfl
@[simp] theorem initSucceeded_sampled (s : State) : (initSucceeded s).sampled = s.sampled := rfl
@[simp] theorem initSucceeded_draws (s : State) : (initSucceeded s).draws = s.draws := rfl
@[simp] theorem initSucceeded_script (s : State) : (initSucceeded s).script = s.script := rfl

@[simp] theorem startSession_rsp (s : State) : (startSession s).rsp = s.rsp := rfl
@[simp] theorem startSession_rspValid (s : State) : (startSession s).rspValid = s.rspValid := rfl
@[simp] theorem startSession_inflight (s : State) : (startSession s).inflight = s.inflight := rfl
@[simp] theorem startSession_available (s : State) : (startSession s).available = false := rfl
@[simp] theorem startSession_busHandle (s : State) : (startSession s).busHandle = none := rfl
@[simp] theorem startSession_init (s : State) : (startSession s).init = .notStarted := rfl
@[simp] theorem startSession_temperatureMode (s : State) : (startSession s).temperatureMode = s.temperatureMode := rfl
@[simp] theorem startSession_lastTransaction (s : State) : (startSession s).lastTransaction = none := rfl
@[simp] theorem startSession_outcome (s : State) : (startSession s).outcome = none := rfl
@[simp] theorem startSession_sampled (s : State) : (startSession s).sampled = none := rfl
@[simp] theorem startSession_draws (s : State) : (startSession s).draws = s.draws := rfl
@[simp] theorem startSession_script (s : State) : (startSession s).script = s.script := rfl

@[simp] theorem withFetchWord_rsp (s : State) (nbits w : Nat) : (s.withFetchWord nbits w).rsp = s.rsp := rfl
@[simp] theorem withFetchWord_rspValid (s : State) (nbits w : Nat) : (s.withFetchWord nbits w).rspValid = s.rspValid := rfl
@[simp] theorem withFetchWord_inflight (s : State) (nbits w : Nat) : (s.withFetchWord nbits w).inflight = s.inflight := rfl
@[simp] theorem withFetchWord_available (s : State) (nbits w : Nat) : (s.withFetchWord nbits w).available = s.available := rfl
@[simp] theorem withFetchWord_busHandle (s : State) (nbits w : Nat) : (s.withFetchWord nbits w).busHandle = s.busHandle := rfl
@[simp] theorem withFetchWord_init (s : State) (nbits w : Nat) : (s.withFetchWord nbits w).init = s.init := rfl
@[simp] theorem withFetchWord_temperatureMode (s : State) (nbits w : Nat) : (s.withFetchWord nbits w).temperatureMode = s.temperatureMode := rfl
@[simp] theorem withFetchWord_lastTransaction (s : State) (nbits w : Nat) : (s.withFetchWord nbits w).lastTransaction = s.lastTransaction := rfl
@[simp] theorem withFetchWord_outcome (s : State) (nbits w : Nat) : (s.withFetchWord nbits w).outcome = s.outcome := rfl
@[simp] theorem withFetchWord_sampled (s : State) (nbits w : Nat) : (s.withFetchWord nbits w).sampled = s.sampled := rfl
@[simp] theorem withFetchWord_draws (s : State) (nbits w : Nat) : (s.withFetchWord nbits w).draws = s.draws := rfl
@[simp] theorem withFetchWord_script (s : State) (nbits w : Nat) : (s.withFetchWord nbits w).script = .issue (tableWord nbits w) :: s.script := rfl

/-- A response hides what RSP, rsp_valid and the command in progress were. -/
@[simp] theorem respond_respond (s : State) (q r : Rsp) : (s.respond q).respond r = s.respond r := rfl

/-- A response hides a change of rsp_valid and of the command in progress. -/
@[simp] theorem respond_ports (s : State) (v : Bool) (f : Option InFlight) (r : Rsp) :
    ({ s with rspValid := v, inflight := f } : State).respond r = s.respond r := rfl

@[simp] theorem cmdReady_respond (s : State) (r : Rsp) : (s.respond r).cmdReady = true := rfl

@[simp] theorem cmdReady_blockReset (s : State) : s.blockReset.cmdReady = true := rfl

theorem cmdReady_iff (s : State) : s.cmdReady = true ↔ s.inflight = none := by
  cases h : s.inflight <;> simp [State.cmdReady, h]

end Sys2Proof.Laws
end

