-- ==== Sys2Proof/Laws/Ops.lean ====
section
/-! SUPPORT. For each shared operation, once, everything it can do. -/

namespace Sys2Proof.Laws

open Sys2Proof Sys2Proof.Machine

/-! The flag byte: its bits, and the flags of a response that carries it. -/

@[simp] theorem flagByte_valid (u k s e v : Bool) : (flagByte u k s e v)[0] = v := by
  revert u k s e v; decide

@[simp] theorem flagByte_err (u k s e v : Bool) : (flagByte u k s e v)[1] = e := by
  revert u k s e v; decide

@[simp] theorem flagByte_st (u k s e v : Bool) : (flagByte u k s e v)[2] = s := by
  revert u k s e v; decide

@[simp] theorem flagByte_crcok (u k s e v : Bool) : (flagByte u k s e v)[3] = k := by
  revert u k s e v; decide

@[simp] theorem flagByte_usable (u k s e v : Bool) : (flagByte u k s e v)[4] = u := by
  revert u k s e v; decide

@[simp] theorem flagByte_reserved (u k s e v : Bool) : (flagByte u k s e v).extractLsb' 5 3 = 0#3 := by
  revert u k s e v; decide

@[simp] theorem valid_mk (u k s e v : Bool) (r : Byte) (a w : Half) (p : Phys) :
    Rsp.valid ⟨flagByte u k s e v, r, a, w, p⟩ = v := by
  revert u k s e v; simp [Rsp.valid]

@[simp] theorem err_mk (u k s e v : Bool) (r : Byte) (a w : Half) (p : Phys) :
    Rsp.err ⟨flagByte u k s e v, r, a, w, p⟩ = e := by
  revert u k s e v; simp [Rsp.err]

@[simp] theorem st_mk (u k s e v : Bool) (r : Byte) (a w : Half) (p : Phys) :
    Rsp.st ⟨flagByte u k s e v, r, a, w, p⟩ = s := by
  revert u k s e v; simp [Rsp.st]

@[simp] theorem crcok_mk (u k s e v : Bool) (r : Byte) (a w : Half) (p : Phys) :
    Rsp.crcok ⟨flagByte u k s e v, r, a, w, p⟩ = k := by
  revert u k s e v; simp [Rsp.crcok]

@[simp] theorem usable_mk (u k s e v : Bool) (r : Byte) (a w : Half) (p : Phys) :
    Rsp.usable ⟨flagByte u k s e v, r, a, w, p⟩ = u := by
  revert u k s e v; simp [Rsp.usable]

@[simp] theorem reserved_mk (u k s e v : Bool) (r : Byte) (a w : Half) (p : Phys) :
    Rsp.reserved ⟨flagByte u k s e v, r, a, w, p⟩ = 0#3 := by
  simp [Rsp.reserved]

/-! The command word's fields. -/

@[simp] theorem op_join (op a m l c : Byte) : CmdWord.op (joinCommand op a m l c) = op := by
  ext i hi
  simp [CmdWord.op, joinCommand]
  grind

@[simp] theorem a_join (op a m l c : Byte) : CmdWord.a (joinCommand op a m l c) = a := by
  ext i hi
  simp [CmdWord.a, joinCommand]
  grind

@[simp] theorem m_join (op a m l c : Byte) : CmdWord.m (joinCommand op a m l c) = m := by
  ext i hi
  simp [CmdWord.m, joinCommand]
  grind

@[simp] theorem l_join (op a m l c : Byte) : CmdWord.l (joinCommand op a m l c) = l := by
  ext i hi
  simp [CmdWord.l, joinCommand]
  grind

@[simp] theorem c_join (op a m l c : Byte) : CmdWord.c (joinCommand op a m l c) = c := by
  ext i hi
  simp [CmdWord.c, joinCommand]
  grind

/-! The meanings, one equation each. -/

@[simp] theorem exec_crcv (data : Half) (chk : Byte) (s : State) :
    exec (.crcv data chk) s = .next (s.respond (crcvRsp data chk)) := rfl

@[simp] theorem exec_dec (m l c a : Byte) (s : State) :
    exec (.dec m l c a) s = .next (s.respond (decodeFrame m l c a)) := rfl

@[simp] theorem exec_cvrh (raw : Half) (s : State) :
    exec (.cvrh raw) s = .next (s.respond (converted (rhQ16 raw))) := rfl

@[simp] theorem exec_cvt (raw : Half) (s : State) :
    exec (.cvt raw) s = .next (s.respond (converted (tQ16 raw))) := rfl

@[simp] theorem exec_mrh (m l c : Byte) (s : State) :
    exec (.mrh m l c) s = .next (s.respond (mrhRsp m l c)) := rfl

@[simp] theorem exec_mt (m l c : Byte) (s : State) :
    exec (.mt m l c) s = .next (s.respond (mtRsp m l c)) := rfl

@[simp] theorem exec_busRhHold (s : State) :
    exec .busRhHold s = .next (s.transact cmdRhHold (Config.busAnswer s.draws)) := rfl

@[simp] theorem exec_busTHold (s : State) :
    exec .busTHold s = .next (s.transact cmdTHold (Config.busAnswer s.draws)) := rfl

/-! Issuing a code word. -/

theorem issue_of_ok {c : CodeWord} {i : Instr} (h : decode c = .ok i) (s : State) : issue c s = exec i s := by
  simp [issue, h]

theorem issue_of_illegal {c : CodeWord} {op : Byte} (h : decode c = .error (.illegalOpcode op)) (s : State) :
    issue c s = .next (s.respond illegalRsp) := by
  simp [issue, h, execIllegal]

theorem issue_of_unlisted {c : CodeWord} {b : Byte} (h : decode c = .error (.unlistedBusByte b)) (s : State) :
    issue c s = .refused (.unlistedBusByte b) := by
  simp [issue, h]

/-- Every outcome of the command decoder. -/
theorem decodeCommand_cases (w : CmdWord) :
    (CmdWord.op w = opCRCV ∧ decodeCommand w = .ok (.crcv (CmdWord.m w ++ CmdWord.l w) (CmdWord.c w))) ∨
    (CmdWord.op w = opDEC ∧
      decodeCommand w = .ok (.dec (CmdWord.m w) (CmdWord.l w) (CmdWord.c w) (CmdWord.a w))) ∨
    (CmdWord.op w = opCVRH ∧ decodeCommand w = .ok (.cvrh (CmdWord.m w ++ CmdWord.l w))) ∨
    (CmdWord.op w = opCVT ∧ decodeCommand w = .ok (.cvt (CmdWord.m w ++ CmdWord.l w))) ∨
    (CmdWord.op w = opMRH ∧ decodeCommand w = .ok (.mrh (CmdWord.m w) (CmdWord.l w) (CmdWord.c w))) ∨
    (CmdWord.op w = opMT ∧ decodeCommand w = .ok (.mt (CmdWord.m w) (CmdWord.l w) (CmdWord.c w))) ∨
    ((CmdWord.op w = 0#8 ∨ 7 ≤ (CmdWord.op w).toNat) ∧
      decodeCommand w = .error (.illegalOpcode (CmdWord.op w))) := by
  unfold decodeCommand
  generalize CmdWord.op w = op
  by_cases h1 : op = opCRCV
  · simp [h1]
  by_cases h2 : op = opDEC
  · simp [h2, opCRCV, opDEC]
  by_cases h3 : op = opCVRH
  · simp [h3, opCRCV, opDEC, opCVRH]
  by_cases h4 : op = opCVT
  · simp [h4, opCRCV, opDEC, opCVRH, opCVT]
  by_cases h5 : op = opMRH
  · simp [h5, opCRCV, opDEC, opCVRH, opCVT, opMRH]
  by_cases h6 : op = opMT
  · simp [h6, opCRCV, opDEC, opCVRH, opCVT, opMRH, opMT]
  have h7 : op = 0#8 ∨ 7 ≤ op.toNat := by
    simp only [opCRCV, opDEC, opCVRH, opCVT, opMRH, opMT] at h1 h2 h3 h4 h5 h6
    bv_omega
  simp [h1, h2, h3, h4, h5, h6, h7]

/-- Everything issuing a bus byte can do. -/
theorem issue_bus8_cases (b : Byte) (s : State) :
    (b = cmdRhHold ∧ issue (.bus8 b) s = .next (s.transact cmdRhHold (Config.busAnswer s.draws))) ∨
    (b = cmdTHold ∧ issue (.bus8 b) s = .next (s.transact cmdTHold (Config.busAnswer s.draws))) ∨
    (b ≠ cmdRhHold ∧ b ≠ cmdTHold ∧ issue (.bus8 b) s = .refused (.unlistedBusByte b)) := by
  by_cases h1 : b = cmdRhHold
  · exact .inl ⟨h1, by simp [issue, decode, decodeBus, h1]⟩
  · by_cases h2 : b = cmdTHold
    · exact .inr (.inl ⟨h2, by simp [issue, decode, decodeBus, h2, cmdRhHold, cmdTHold]⟩)
    · exact .inr (.inr ⟨h1, h2, by simp [issue, decode, decodeBus, h1, h2]⟩)

/-! The clock. -/

theorem advance_last {n : Nat} (h : n ≤ 1) (w : CmdWord) (s : State) : advance w n s = issue (.cmd40 w) s := by
  simp [advance, h]

theorem advance_more {n : Nat} (h : 1 < n) (w : CmdWord) (s : State) :
    advance w n s = .next { s with rspValid := false, inflight := some ⟨w, n - 1⟩ } := by
  simp [advance, Nat.not_le.mpr h]

/-- Everything one clock cycle can do: reset, go on with the command in progress, accept one, or idle. -/
theorem clock_cases (p : PortInputs) (s : State) :
    (p.rst = true ∧ clock p s = .next s.blockReset) ∨
    (p.rst = false ∧ ∃ f, s.inflight = some f ∧ clock p s = advance f.cmd f.remaining s) ∨
    (p.rst = false ∧ s.inflight = none ∧ p.cmdValid = true ∧
      clock p s = advance p.cmd (Config.extraLatency p.cmd + 1) s) ∨
    (p.rst = false ∧ s.inflight = none ∧ p.cmdValid = false ∧ clock p s = .next { s with rspValid := false }) := by
  cases hr : p.rst <;> cases hf : s.inflight <;> cases hv : p.cmdValid <;> simp [clock, hr, hf, hv]

/-! The host's reads. -/

/-- Everything a read accessor can do, on any path whose command answers a response whatever the state. -/
theorem readWith_cases {command : Byte → Byte → Byte → Instr} {r : Byte → Byte → Byte → Rsp}
    (hc : ∀ m l c s, exec (command m l c) s = .next (s.respond (r m l c)))
    (byte : Byte) (toFloat : Half → BitVec 32) (answer : BusAnswer) (s : State) :
    (s.available = false ∧ readWith byte command toFloat answer s = .next (s.hand (.number 0#32))) ∨
    (s.available = true ∧ answer = .busError ∧
      readWith byte command toFloat answer s = .next ((s.transact byte answer).hand .busFailure)) ∨
    (s.available = true ∧ ∃ f, answer = .frame f ∧
      readWith byte command toFloat answer s =
        .next (((s.transact byte answer).respond (r f.msb f.lsb f.checksum)).hand
          (.number (toFloat (r f.msb f.lsb f.checksum).val)))) := by
  cases ha : s.available <;> cases answer <;> simp [readWith, ha, hc]

/-! The calls of `initialize`. -/

theorem beginInitialize_cases (s : State) :
    (s.init = .notStarted ∧ beginInitialize s = .next { s with init := .suspended }) ∨
    (s.init ≠ .notStarted ∧ beginInitialize s = .refused .initOutOfOrder) := by
  by_cases h : s.init = .notStarted <;> simp [beginInitialize, h]

theorem completeInitializeOn_cases (opened : Bool) (answer : BusAnswer) (s : State) :
    (s.init = .suspended ∧ opened = false ∧ completeInitializeOn opened answer s = .next (initFailed s)) ∨
    (s.init = .suspended ∧ opened = true ∧ answer = .busError ∧
      completeInitializeOn opened answer s = .next (initFailed (s.transact cmdTHold answer))) ∨
    (s.init = .suspended ∧ opened = true ∧ (∃ f, answer = .frame f) ∧
      completeInitializeOn opened answer s = .next (initSucceeded (s.transact cmdTHold answer))) ∨
    (s.init ≠ .suspended ∧ completeInitializeOn opened answer s = .refused .initOutOfOrder) := by
  by_cases h : s.init = .suspended <;> cases opened <;> cases answer <;> simp [completeInitializeOn, h]

theorem abandonInitialize_cases (s : State) :
    (s.init = .suspended ∧ abandonInitialize s = .next { s with init := .abandoned }) ∨
    (s.init ≠ .suspended ∧ abandonInitialize s = .refused .initOutOfOrder) := by
  by_cases h : s.init = .suspended <;> simp [abandonInitialize, h]

/-! The step. -/

theorem step_nil {s : State} (h : s.script = []) : step s = clock PortInputs.idle s := by
  simp [step, h]

theorem step_cons {s : State} {a : HostAction} {rest : List HostAction} (h : s.script = a :: rest) :
    step s = perform a { s with script := rest } := by
  simp [step, h]

/-- What is handed over is what the very next step carries out. -/
theorem step_withFetchWord (s : State) (nbits w : Nat) :
    step (s.withFetchWord nbits w) = issue (tableWord nbits w) s := rfl

end Sys2Proof.Laws
end

