-- ==== Sys2Proof/Laws/PerInstr.lean ====
section
/-! SUPPORT. Statements made for each instruction, one lemma a constructor. -/

namespace Sys2Proof.Laws

open Sys2Proof

/-- The code word of an instruction has the width its row of spec/opcode_table.json gives, and its bits under the row's mask
are the row's match (30_encoding.md R65, R74). -/
def TableRow.Statement (i : Instr) : Prop :=
  (encode i).nbits = i.row.width ∧ (encode i).value % 2 ^ i.row.width = (encode i).value ∧
    (encode i).value &&& i.row.mask = i.row.matchBits

/-- The mask of the six rows of format CMD40 leaves of a command word its opcode and nothing else. -/
theorem mask_eq_op (w : CmdWord) : w &&& 0xFF00000000#40 = (CmdWord.op w).setWidth 40 <<< 32 := by
  ext i hi
  interval_cases i <;> simp [CmdWord.op, ← BitVec.getLsbD_eq_getElem]

theorem joinCommand_mask (op a m l c : Byte) :
    (joinCommand op a m l c).toNat &&& 0xFF00000000 = op.toNat * 2 ^ 32 := by
  have h := congrArg BitVec.toNat (mask_eq_op (joinCommand op a m l c))
  have hb := op.isLt
  have e : (0xFF00000000#40).toNat = 0xFF00000000 := rfl
  simp only [op_join, BitVec.toNat_and, BitVec.toNat_shiftLeft, BitVec.toNat_setWidth, Nat.shiftLeft_eq, e] at h
  omega

theorem TableRow.crcv (data : Half) (chk : Byte) : TableRow.Statement (.crcv data chk) := by
  refine ⟨rfl, Nat.mod_eq_of_lt (BitVec.isLt _), ?_⟩
  exact joinCommand_mask _ _ _ _ _

theorem TableRow.dec (msb lsb chk adj : Byte) : TableRow.Statement (.dec msb lsb chk adj) := by
  refine ⟨rfl, Nat.mod_eq_of_lt (BitVec.isLt _), ?_⟩
  exact joinCommand_mask _ _ _ _ _

theorem TableRow.cvrh (raw : Half) : TableRow.Statement (.cvrh raw) := by
  refine ⟨rfl, Nat.mod_eq_of_lt (BitVec.isLt _), ?_⟩
  exact joinCommand_mask _ _ _ _ _

theorem TableRow.cvt (raw : Half) : TableRow.Statement (.cvt raw) := by
  refine ⟨rfl, Nat.mod_eq_of_lt (BitVec.isLt _), ?_⟩
  exact joinCommand_mask _ _ _ _ _

theorem TableRow.mrh (msb lsb chk : Byte) : TableRow.Statement (.mrh msb lsb chk) := by
  refine ⟨rfl, Nat.mod_eq_of_lt (BitVec.isLt _), ?_⟩
  exact joinCommand_mask _ _ _ _ _

theorem TableRow.mt (msb lsb chk : Byte) : TableRow.Statement (.mt msb lsb chk) := by
  refine ⟨rfl, Nat.mod_eq_of_lt (BitVec.isLt _), ?_⟩
  exact joinCommand_mask _ _ _ _ _

theorem TableRow.busRhHold : TableRow.Statement .busRhHold := ⟨rfl, rfl, rfl⟩

theorem TableRow.busTHold : TableRow.Statement .busTHold := ⟨rfl, rfl, rfl⟩

end Sys2Proof.Laws
end

