-- ==== Sys2Proof/Laws/Values.lean ====
section
/-! SUPPORT. Small laws of the functions on values: the CRC loop, operand assembly, the converter, rounding. -/

namespace Sys2Proof.Laws

open Sys2Proof Sys2Proof.Machine

@[simp] theorem crcLoop_zero (d : Dividend) : crcLoop 0 d = d := rfl

theorem crcLoop_succ (n : Nat) (d : Dividend) : crcLoop (n + 1) d = crcStep (crcLoop n d) n := rfl

theorem crcStep_of_set {d : Dividend} {i : Nat} (h : d.getLsbD (23 - i) = true) :
    crcStep d i = d ^^^ (poly <<< (15 - i)) := by
  simp [crcStep, h]

theorem crcStep_of_clear {d : Dividend} {i : Nat} (h : d.getLsbD (23 - i) = false) : crcStep d i = d := by
  simp [crcStep, h]

/-- The two low bits of an assembled value are 0. -/
theorem asm16_low (m l : Byte) : (asm16 m l).extractLsb' 0 2 = 0#2 := by
  have h : ∀ l : Byte, ((l &&& dataMask).setWidth 16).extractLsb' 0 2 = 0#2 := by decide +kernel
  have h2 : ∀ m : Byte, (m.setWidth 16 <<< 8).extractLsb' 0 2 = 0#2 := by decide +kernel
  have h3 : ∀ x y : Half, (x ||| y).extractLsb' 0 2 = x.extractLsb' 0 2 ||| y.extractLsb' 0 2 := by
    intro x y
    ext i hi
    simp
  rw [asm16, h3, h, h2]
  rfl

/-- The status bit is bit 1 of `lsb`. -/
theorem statusBit_eq (l : Byte) : statusBit l = l.getLsbD 1 := by
  revert l; decide +kernel

/-- An integer inside the range of `int32` is what its register holds. -/
theorem toInt_ofInt32 {n : Int} (h1 : -2147483648 ≤ n) (h2 : n < 2147483648) : (BitVec.ofInt 32 n).toInt = n := by
  rw [BitVec.toInt_ofInt]
  exact Int.bmod_eq_of_le (by omega) (by omega)

/-- Nothing is rounded away from a number without low bits. -/
@[simp] theorem roundLow_zero (n : Nat) : roundLow 0 n = n := by
  simp [roundLow, Nat.mod_one]

theorem round_of_short {p : Nat} {x : BinFrac} (h : bitLength x.num.natAbs ≤ p) : x.round p = x := by
  have h0 : bitLength x.num.natAbs - p = 0 := by omega
  cases x with
  | mk n k =>
    simp only [BinFrac.round, h0, roundLow_zero]
    exact congrArg (BinFrac.mk · k) (Int.sign_mul_natAbs n)

end Sys2Proof.Laws
end

