-- ==== Sys2Proof/Tests/Slice0.lean ====
section
/-! SUPPORT. Tests. Expected values are the spec's own: 95_test_vectors.md (parts named at each test), the examples of the
rules, and words written out bit by bit from 30_encoding.md R63, R65, R73. Then, for every statement with hypotheses, a
witness that meets them. -/

namespace Sys2Proof.Tests

open Sys2Proof Sys2Proof.Machine Sys2Proof.Claims Sys2Proof.Safety

/-- RSP after an outcome. -/
def rspAfter : Host.Outcome State Fault Refusal → Option RspWord
  | .next t => some t.rsp.word
  | .fault _ => none
  | .refused _ => none

/-- The host's outcome after an outcome. -/
def outcomeAfter : Host.Outcome State Fault Refusal → Option CallOutcome
  | .next t => t.outcome
  | .fault _ => none
  | .refused _ => none

/-- What one command word leaves in RSP, from a state whose RSP holds an earlier response and which is busy. -/
def answer (w : CmdWord) : Option RspWord :=
  rspAfter (issue (.cmd40 w) { State.reset with
    rsp := Rsp.ofWord 0x19B86A5C6A5C002DEEEC#80, inflight := some ⟨0x0400800000#40, 3⟩ })

/-! ### WellFormed refuses: too few operands, too many, an operand too wide, in each place -/

theorem test_wf_few : AsmLine.wellFormed ⟨.crcv, [0]⟩ = false := by decide
theorem test_wf_many : AsmLine.wellFormed ⟨.cvt, [0, 0]⟩ = false := by decide
theorem test_wf_wide16 : AsmLine.wellFormed ⟨.cvrh, [65536]⟩ = false := by decide
theorem test_wf_wide8 : AsmLine.wellFormed ⟨.dec, [0, 0, 0, 256]⟩ = false := by decide
theorem test_wf_pseudo : AsmLine.wellFormed ⟨.dech, [0, 0, 0, 0x62]⟩ = false := by decide
theorem test_wf_good : AsmLine.wellFormed ⟨.mrh, [255, 255, 255]⟩ = true := by decide
theorem test_wf_refused_line : Machine.AsmLine.assemble ⟨.cvrh, [65536]⟩ = none := by decide

/-! ### Decoding, words written from the encodings: OP, A, M, L, C -/

theorem test_decode_crcv :
    decode (.cmd40 0b0000000110101010011010100101110010111000#40) = .ok (.crcv 0x6A5C#16 0xB8#8) := by rfl
theorem test_decode_dec :
    decode (.cmd40 0b0000001001100010011010100101110111011010#40) = .ok (.dec 0x6A#8 0x5D#8 0xDA#8 0x62#8) := by rfl
theorem test_decode_cvrh :
    decode (.cmd40 0b0000001110101010011010100101110001010101#40) = .ok (.cvrh 0x6A5C#16) := by rfl
theorem test_decode_cvt :
    decode (.cmd40 0b0000010000000000011101000110100000000000#40) = .ok (.cvt 0x7468#16) := by rfl
theorem test_decode_mrh :
    decode (.cmd40 0b0000010111111111011010100101110011011010#40) = .ok (.mrh 0x6A#8 0x5C#8 0xDA#8) := by rfl
theorem test_decode_mt :
    decode (.cmd40 0b0000011000000000011101000110100010111010#40) = .ok (.mt 0x74#8 0x68#8 0xBA#8) := by rfl
theorem test_decode_busRhHold : decode (.bus8 0b11100101#8) = .ok .busRhHold := by rfl
theorem test_decode_busTHold : decode (.bus8 0b11100011#8) = .ok .busTHold := by rfl
theorem test_decode_illegal : decode (.cmd40 0x8100000000#40) = .error (.illegalOpcode 0x81#8) := by rfl
theorem test_decode_unlisted : decode (.bus8 0xFE#8) = .error (.unlistedBusByte 0xFE#8) := by rfl
theorem test_decode_bytes :
    decodeBytes [0x02#8, 0x62#8, 0x6A#8, 0x5C#8, 0xDA#8] = .ok (.dec 0x6A#8 0x5C#8 0xDA#8 0x62#8) := by rfl
theorem test_decode_bytes_length : decodeBytes [0x02#8, 0x62#8] = .error (.badLength 2) := by rfl

/-! ### The commands (95_test_vectors.md parts 3 to 7), two each -/

theorem test_crcv_mismatch : answer 0x01006A5CB9#40 = some 0x01B80000000000000000#80 := by decide +kernel
theorem test_crcv_ignoredA : answer 0x01FF6A5CB8#40 = some 0x09B80000000000000000#80 := by decide +kernel
theorem test_dec_adjusted : answer 0x02A5FFFCDB#40 = some 0x197EFFFCFFFC00000000#80 := by decide +kernel
theorem test_dec_bothCauses : answer 0x02006A5E00#40 = some 0x05B86A5C000000000000#80 := by decide +kernel
theorem test_cvrh_lastNegative : answer 0x03000C4900#40 = some 0x010000000000FFFFFFA5#80 := by decide +kernel
theorem test_cvrh_ignored : answer 0x03AA6A5C55#40 = some 0x010000000000002DEEEC#80 := by decide +kernel
theorem test_cvt_firstPositive : answer 0x0400444200#40 = some 0x01000000000000004248#80 := by decide +kernel
theorem test_cvt_largest : answer 0x0400FFFF00#40 = some 0x0100000000003256BB5C#80 := by decide +kernel
theorem test_mrh_usable : answer 0x05007C8097#40 = some 0x19F57C807C800036CA80#80 := by decide +kernel
theorem test_mrh_causeK : answer 0x05007468BA#40 = some 0x01BA74680000FFFA0000#80 := by decide +kernel
theorem test_mt_usable : answer 0x0600444037#40 = some 0x193744404440FFFFB900#80 := by decide +kernel
theorem test_mt_masked : answer 0x0600683A7C#40 = some 0x051E68380000EDB30000#80 := by decide +kernel
theorem test_illegal_bus : answer 0xE5006A5CDA#40 = some 0x03000000000000000000#80 := by decide +kernel
theorem test_illegal_zero : answer 0x0000000000#40 = some 0x03000000000000000000#80 := by decide +kernel

/-- The bus byte leaves the block alone and draws one answer. -/
theorem test_busRhHold : step (State.reset.withFetchWord 8 0xE5) =
    .next { State.reset with lastTransaction := some ⟨0xE5#8, 3, Config.busAnswer 0⟩, draws := 1 } := rfl
theorem test_busTHold : step (State.reset.withFetchWord 8 0xE3) =
    .next { State.reset with lastTransaction := some ⟨0xE3#8, 3, Config.busAnswer 0⟩, draws := 1 } := rfl

/-! ### The remainder (part 2.2, and the values of 93_implementation_defined.md GK3), assembly, packing -/

theorem test_crc8_gk3 : crc8 0x00DC#16 = 0x79#8 ∧ crc8 0x683A#16 = 0x7C#8 ∧ crc8 0x4E85#16 = 0x6B#8 := by
  decide +kernel
theorem test_crc8_8000 : crc8 0x8000#16 = 0x23#8 ∧ crc8ShiftRegister 0x8000#16 = 0x23#8 := by decide +kernel
/-- The trace of `crc8(0x0002)` (part 2.1): the dividend after i = 14. -/
theorem test_crcLoop_trace : crcLoop 15 0x000200#24 = 0x000062#24 := by decide +kernel
/-- 30_encoding.md R72: `DECH 0x6A, 0x5C, 0xDA` (part 4). -/
theorem test_assemble_dech : assembleText
    ['D', 'E', 'C', 'H', ' ', '0', 'x', '6', 'A', ',', ' ', '9', '2', ',', ' ', '0', 'x', 'd', 'a', ' ', ';', ' ', 'h'] =
    some (.cmd40 0x02626A5CDA#40) := by decide +kernel
theorem test_rsp_bytes : (Rsp.ofWord 0x19B86A5C6A5C002DEEEC#80).bytes =
    [0x19#8, 0xB8#8, 0x6A#8, 0x5C#8, 0x6A#8, 0x5C#8, 0x00#8, 0x2D#8, 0xEE#8, 0xEC#8] := by decide +kernel

/-! ### The float reference functions (part 6.1) -/

theorem test_f64T_32768 : bits64 (f64T 0x8000#16) = 0x40448147AE147AE1#64 := by decide +kernel
theorem test_f64T_65535 : bits64 (f64T 0xFFFF#16) = 0x40601BC113333333#64 := by decide +kernel
theorem test_f64Rh_27228 : bits64 (f64Rh 0x6A5C#16) = 0x4046F77600000000#64 := by decide +kernel
theorem test_accessorT_29800 : accessorT 0x7468#16 = 0x4204353A#32 := by decide +kernel
theorem test_accessorRh_65532 : accessorRh 0xFFFC#16 = 0x42EDFC18#32 := by decide +kernel
/-- R107: c1 is 175.72 less 1/879609302220800, c2 is 46.85 and 1/703687441776640. -/
theorem test_c1_c2_distance :
    (17572 * 2 ^ c1.scale - 100 * c1.num) * 879609302220800 = 100 * 2 ^ c1.scale ∧
    (100 * c2.num - 4685 * 2 ^ c2.scale) * 703687441776640 = 100 * 2 ^ c2.scale := by decide +kernel

/-! ### The session (44_measurement_paths.md R119, R122 to R126, HA's scenarios E6 to E9) -/

/-- A session that is available. -/
def ready : State :=
  { State.reset with available := true, init := .finished, busHandle := some ⟨0, 0x0040#16⟩ }

theorem test_read_unavailable :
    outcomeAfter (readHumidityOn (.frame ⟨0x6A#8, 0x5C#8, 0xDA#8⟩) State.reset) = some (.number 0#32) := by
  decide +kernel
/-- Program P1's host value. -/
theorem test_readHumidity_P1 :
    outcomeAfter (readHumidityOn (.frame ⟨0x6A#8, 0x5C#8, 0xDA#8⟩) ready) = some (.number 0x4237BBB0#32) := by
  decide +kernel
/-- Program P2's host value. -/
theorem test_readTemperature_P2 :
    outcomeAfter (readTemperatureOn (.frame ⟨0x74#8, 0x68#8, 0xBA#8⟩) ready) = some (.number 0x4204353A#32) := by
  decide +kernel
/-- Scenario E8: a set status bit gives -6.0, not 0. -/
theorem test_readHumidity_E8 :
    outcomeAfter (readHumidityOn (.frame ⟨0x6A#8, 0x5E#8, 0xDA#8⟩) ready) = some (.number 0xC0C00000#32) := by
  decide +kernel
/-- Scenario E7 on the temperature path. -/
theorem test_readTemperature_E7 :
    outcomeAfter (readTemperatureOn (.frame ⟨0#8, 0#8, 0#8⟩) ready) = some (.number 0xC23B6666#32) := by
  decide +kernel
theorem test_read_busError : outcomeAfter (readTemperatureOn .busError ready) = some .busFailure := by decide +kernel
/-- Scenario E9. -/
theorem test_init_noDevice :
    outcomeAfter (completeInitializeOn false .busError { State.reset with init := .suspended }) =
      some (.initDone false) := by decide +kernel

/-! ### The clock (70_reset_and_hazards.md R151, R156; program P8) -/

/-- A command in progress with two edges to go. -/
def busy : State := { ready with inflight := some ⟨0x06007468BA#40, 2⟩ }

/-- P8: reset in the middle of a command. -/
theorem test_reset_midway : clock ⟨true, true, 0x0300800000#40⟩ busy = .next ready := by rfl
theorem test_busy_keeps : clock ⟨false, true, 0x0300800000#40⟩ busy =
    .next { ready with inflight := some ⟨0x06007468BA#40, 1⟩ } := by rfl
theorem test_busy_ends : rspAfter (clock ⟨false, false, 0#40⟩ { ready with inflight := some ⟨0x06007468BA#40, 1⟩ }) =
    some 0x19BA746874680CE932A0#80 := by decide +kernel
/-- The host reads RSP whole. -/
theorem test_sample : step { ready with script := [.sampleRsp] } = .next { ready with sampled := some 0#80 } := by rfl
/-- An empty script from reset: the block stays idle. -/
theorem test_idle : step State.reset = .next State.reset := by rfl

/-! ### Witnesses for the hypotheses of the statements -/

/-- A state whose RSP holds a response. -/
def answered : State := { ready with rsp := Rsp.ofWord 0x19B86A5C6A5C002DEEEC#80 }

theorem witness_ResetState : Rsp.zero.valid = false := by decide
theorem witness_ResetClearsTheBlock :
    (⟨true, true, 0#40⟩ : PortInputs).rst = true ∧
    (∃ t, step { answered with script := [.cycle ⟨true, false, 0#40⟩] } = .next t ∧ answered.rsp.valid = true ∧
      t.rsp.valid = false) ∧
    ∃ t, issue (.cmd40 0x0700000000#40) State.reset = .next t := by
  exact ⟨rfl, ⟨_, rfl, by decide, by decide⟩, ⟨_, rfl⟩⟩
theorem witness_ResetAbandonsTheCommand :
    (⟨true, false, 0#40⟩ : PortInputs).rst = true ∧ busy.inflight = some ⟨0x06007468BA#40, 2⟩ := ⟨rfl, rfl⟩
theorem witness_BusyBlockAcceptsNothing :
    (⟨false, true, 0x0300800000#40⟩ : PortInputs).rst = false ∧ busy.inflight = some ⟨0x06007468BA#40, 2⟩ := ⟨rfl, rfl⟩
theorem witness_ResponseLastsUntilTheNext :
    (∀ p ∈ [(⟨false, true, 0#40⟩ : PortInputs)], p.rst = false) ∧ [(⟨false, true, 0#40⟩ : PortInputs)] ≠ [] ∧
    busy.inflight = some ⟨0x06007468BA#40, 2⟩ ∧ [(⟨false, true, 0#40⟩ : PortInputs)].length < 2 := by
  refine ⟨?_, by simp, rfl, by simp⟩
  intro p hp
  simp at hp
  simp [hp]
theorem witness_ResponseLastsUntilTheNext_idle :
    ({ answered with rspValid := true } : State).inflight = none ∧ (⟨false, false, 0x0300800000#40⟩ : PortInputs).rst = false ∧
    (⟨false, false, 0x0300800000#40⟩ : PortInputs).cmdValid = false := ⟨rfl, rfl, rfl⟩
theorem witness_ResponseLastsUntilTheNext_accept :
    answered.inflight = none ∧ (∀ p ∈ [(⟨false, true, 0#40⟩ : PortInputs)], p.rst = false) := by
  refine ⟨rfl, ?_⟩
  intro p hp
  simp at hp
  simp [hp]
/-- A cycle in which nothing happens ends the pulse (10_state.md R30) and keeps RSP. -/
theorem test_pulse_ends : clock ⟨false, false, 0x0300800000#40⟩ { answered with rspValid := true } = .next answered := by rfl
theorem witness_ClockRefinesTransaction (w : CmdWord) :
    State.reset.inflight = none ∧
    (∀ p ∈ List.replicate (Config.extraLatency w) PortInputs.idle, p.rst = false) ∧
    (List.replicate (Config.extraLatency w) PortInputs.idle).length = Config.extraLatency w ∧
    ({ ready with inflight := some ⟨w, 1⟩ } : State).inflight = some ⟨w, [PortInputs.idle].length⟩ ∧
    (∀ p ∈ [PortInputs.idle], p.rst = false) ∧ [PortInputs.idle] ≠ [] := by
  refine ⟨rfl, ?_, by simp, rfl, ?_, by simp⟩
  · intro p hp
    rw [List.eq_of_mem_replicate hp]
    rfl
  · intro p hp
    simp at hp
    simp [hp, PortInputs.idle]
theorem witness_FieldsNotProducedAreZero :
    CmdWord.op 0x0100000000#40 = 0x01#8 ∧ CmdWord.op 0x0200000000#40 = 0x02#8 ∧ CmdWord.op 0x0300000000#40 = 0x03#8 ∧
    CmdWord.op 0x0400000000#40 = 0x04#8 ∧ legalOp (CmdWord.op 0x0100000000#40) ∧ legalOp (CmdWord.op 0x0600000000#40) ∧
    ¬ legalOp (CmdWord.op 0x0000000000#40) ∧ ¬ legalOp (CmdWord.op 0x0700000000#40) := by
  simp only [legalOp]
  decide
theorem witness_IllegalWordIsAnswered :
    (CmdWord.op 0x00FFFFFFFF#40).toNat = 0 ∧ 7 ≤ (CmdWord.op 0x0700000000#40).toNat ∧
    7 ≤ (CmdWord.op 0xFFFFFFFFFF#40).toNat := by decide
theorem witness_IgnoredFieldsHaveNoEffect :
    CmdWord.op 0x03AA6A5C55#40 = CmdWord.op 0x03006A5C00#40 ∧
    0x03AA6A5C55#40 &&& usedBits (CmdWord.op 0x03AA6A5C55#40) = 0x03006A5C00#40 &&& usedBits (CmdWord.op 0x03006A5C00#40) ∧
    (0x03AA6A5C55#40 : CmdWord) ≠ 0x03006A5C00#40 := by decide
theorem witness_OpcodeSelectsTheRow :
    decodeCommand 0x06FFFFFFFF#40 = .ok (.mt 0xFF#8 0xFF#8 0xFF#8) ∧ ¬ legalOp (CmdWord.op 0x0700000000#40) := by
  exact ⟨rfl, by simp only [legalOp]; decide⟩
theorem witness_EncodeOfDecode : decodeCommand 0x01FF6A5CB8#40 = .ok (.crcv 0x6A5C#16 0xB8#8) := by rfl
theorem witness_AssemblerTable :
    (65535 < 2 ^ 16 ∧ 255 < 2 ^ 8) ∧ AsmLine.wellFormed ⟨.crcv, [65536, 0]⟩ = false := by decide
theorem witness_CrcLoopClearsFromTheTop :
    (16 ≤ 16 ∧ 24 - 16 ≤ 8 ∧ 8 < 24) ∧ (15 < 16 ∧ 23 - 15 < 9) ∧ (0 < 16 ∧ 23 - 0 < 24) ∧
    (15 < 16 ∧ (0xFFFEFF#24).getLsbD (23 - 15) = false) := by decide
theorem witness_CrcIsThePolynomialRemainder :
    (0x0001#16 ++ 0#8 : Dividend) = generatorTimes 0x0001#16 16 ^^^ (0x31#8).setWidth 24 := by decide +kernel
theorem witness_EachRemainderFromOneLowByte : crc8 (0x00#8 ++ 0x01#8) = 0x31#8 := by decide +kernel
theorem witness_DecoderProperties :
    (0x5E#8).getLsbD 1 = true ∧ (0x5C#8).getLsbD 1 = false ∧ 0xB8#8 ≠ crc8 (asm16 0x6A#8 0x5C#8) ^^^ 0x62#8 := by
  decide +kernel
theorem witness_DisqualificationCauses :
    (0x5C#8).getLsbD 1 = false ∧ crc8 (asm16 0x6A#8 0x5C#8) = 0xDA#8 ^^^ 0x62#8 ∧
    crc8 (asm16 0x6A#8 0x5C#8) ≠ 0xB8#8 ^^^ 0x62#8 ∧
    (0x5E#8).getLsbD 1 = true ∧ crc8 (asm16 0x6A#8 0x5E#8) = 0xDA#8 ^^^ 0x62#8 ∧
    crc8 (asm16 0x6A#8 0x5E#8) ≠ 0x00#8 ^^^ 0x62#8 ∧
    (Instr.mrh 0x6A#8 0x5C#8 0xDA#8 = .mrh 0x6A#8 0x5C#8 0xDA#8 ∧ adjRh = 0x62#8) ∧
    (Instr.mt 0x74#8 0x68#8 0xBA#8 = .mt 0x74#8 0x68#8 0xBA#8 ∧ adjT = 0x00#8) ∧
    crc8 (asm16 0x74#8 0x68#8) = 0xBA#8 ^^^ 0x00#8 ∧ crc8 (asm16 0x74#8 0x6A#8) = 0xBA#8 ^^^ 0x00#8 := by
  decide +kernel
theorem witness_ConverterIsStrictlyIncreasing :
    (0x0000#16).toNat < (0x0001#16).toNat ∧ (0xFFFE#16).toNat < (0xFFFF#16).toNat := by decide
theorem witness_RoundingIsToNearestEven :
    (bitLength 5 > 2 ∧ 2 * 5 = 2 * roundLow (bitLength 5 - 2) 5 + 2 ^ (bitLength 5 - 2)) ∧
    (bitLength 7 > 2 ∧ 2 * roundLow (bitLength 7 - 2) 7 = 2 * 7 + 2 ^ (bitLength 7 - 2)) ∧ 3 < 2 ^ 2 := by
  decide +kernel
theorem witness_DisqualifiedReadingIsConverted :
    (0x5E#8).getLsbD 1 = true ∧ crc8 (asm16 0x00#8 0x00#8) ≠ 0x00#8 ^^^ 0x62#8 ∧
    crc8 (asm16 0x00#8 0x00#8) ≠ 0x62#8 := by decide +kernel
theorem witness_BusBytes :
    (0x00#8 : Byte) ≠ 0xE5#8 ∧ (0x00#8 : Byte) ≠ 0xE3#8 ∧ CmdWord.op 0xE5006A5CDA#40 = 0xE5#8 ∧
    CmdWord.op 0xE300000000#40 = 0xE3#8 := by decide
theorem witness_ReadProcedures : State.reset.available = false ∧ ready.available = true := ⟨rfl, rfl⟩
theorem witness_TemperatureCommandModes :
    ready.available = true ∧ ∃ t, step ready = .next t := ⟨rfl, _, rfl⟩
theorem witness_InitializeEnds : ({ State.reset with init := .suspended } : State).init = .suspended := rfl
theorem witness_AvailableOnlyThroughInitialize :
    ((∃ t, step State.reset = .next t) ∧ State.reset.available = false ∧
      ¬ ∃ rest, State.reset.script = .completeInit :: rest ∧ State.reset.init = .suspended) ∧
    (({ State.reset with init := .suspended, script := [.completeInit] } : State).script = .completeInit :: [] ∧
      ({ State.reset with init := .suspended, script := [.completeInit] } : State).init = .suspended ∧
      ({ State.reset with init := .suspended, script := [.completeInit] } : State).available = false) ∧
    ((∃ t, step ready = .next t) ∧ ready.available = true ∧ (¬ ∃ rest, ready.script = .newSession :: rest) ∧
      ready.busHandle.isSome = true) := by
  refine ⟨⟨⟨_, rfl⟩, rfl, ?_⟩, ⟨rfl, rfl, rfl⟩, ⟨_, rfl⟩, rfl, ?_, rfl⟩
  · rintro ⟨rest, h, -⟩
    cases h
  · rintro ⟨rest, h⟩
    cases h
theorem witness_StepRunsTheDecodedInstruction :
    ({ ready with script := [.issue (.cmd40 0x06007468BA#40)] } : State).script = .issue (.cmd40 0x06007468BA#40) :: [] ∧
    decode (.cmd40 0x06007468BA#40) = .ok (.mt 0x74#8 0x68#8 0xBA#8) ∧ State.reset.script = [] ∧
    decodeTableWord 40 0x06007468BA = some (.mt 0x74#8 0x68#8 0xBA#8) ∧
    (∀ a : HostAction, ({ ready with script := [a] } : State).script = a :: []) := by
  exact ⟨rfl, rfl, rfl, rfl, fun _ => rfl⟩
theorem witness_BlockAndHostKeepApart :
    (∃ t, issue (.cmd40 0x0400000000#40) ready = .next t) ∧ (∃ t, clock ⟨true, false, 0#40⟩ busy = .next t) ∧
    (∃ t, step { busy with script := [.sampleRsp] } = .next t) ∧
    (∃ t, step { State.reset with script := [.beginInit] } = .next t) ∧
    (∃ t, step { State.reset with script := [.abandonInit], init := .suspended } = .next t) ∧
    (∃ t, step { busy with script := [.newSession] } = .next t) ∧
    ∃ t, step { busy with script := [.issue (.bus8 0xE3#8)] } = .next t :=
  ⟨⟨_, rfl⟩, ⟨_, rfl⟩, ⟨_, rfl⟩, ⟨_, rfl⟩, ⟨_, rfl⟩, ⟨_, rfl⟩, ⟨_, rfl⟩⟩
/-- The witness of the completion of `initialize`, whatever the free answers are. -/
theorem witness_BlockAndHostKeepApart_completeInit :
    ∃ t, step { busy with script := [.completeInit], init := .suspended, available := false, busHandle := none } = .next t := by
  simp only [step, perform, completeInitializeOn, State.draw]
  cases Config.openSucceeds _ <;> cases Config.busAnswer _ <;> exact ⟨_, rfl⟩
theorem witness_InitializeBegins :
    (({ State.reset with script := [.beginInit] } : State).script = .beginInit :: [] ∧ State.reset.init = .notStarted) ∧
    (({ ready with script := [.beginInit] } : State).script = .beginInit :: [] ∧ ready.init ≠ .notStarted) ∧
    ({ ready with script := [.newSession] } : State).script = .newSession :: [] := by
  exact ⟨⟨rfl, rfl⟩, ⟨rfl, by decide⟩, rfl⟩
theorem witness_TheBlockNeverStops : State.reset.script = [] ∧
    ∀ w, ({ busy with script := [.issue (.cmd40 w)] } : State).script = .issue (.cmd40 w) :: [] := ⟨rfl, fun _ => rfl⟩
theorem witness_RunOfACommandList :
    ({ ready with script := [.issue (.cmd40 0x0300800000#40), .issue (.cmd40 0xE5006A5CDA#40), .sampleRsp] } : State).script =
      ([0x0300800000#40] ++ [0xE5006A5CDA#40]).map (fun v => HostAction.issue (.cmd40 v)) ++ [.sampleRsp] := rfl
theorem witness_GoodStatesStayGood :
    good { ready with script := [.issue (.cmd40 0x0300800000#40)] } = true ∧
    ∃ t, step { ready with script := [.issue (.cmd40 0x0300800000#40)] } = .next t := ⟨by decide, _, rfl⟩
theorem witness_RspIsAlwaysAResponse : State.reset.rsp.word = 0#80 ∧ ∃ t, step State.reset = .next t :=
  ⟨by decide, _, rfl⟩
theorem witness_GoodStates_busy : good busy = true ∧ good answered = true := by decide

end Sys2Proof.Tests
end

section
/-! PROOFS. 00_scope.md R11 (log 15): rounding to nearest, ties to even, of the numbers the float reference functions work on. -/

namespace Sys2Proof.Proofs

open Sys2Proof Sys2Proof.Machine Sys2Proof.Laws

/-- What rounding away `s` low bits can do: go down to the multiple of the last kept place below `n`, or up to the one above. The
last two facts of each case say when it is taken; on a tie the parity of the quotient decides. -/
theorem roundLow_cases (s n : Nat) :
    (roundLow s n = n / 2 ^ s * 2 ^ s ∧ 2 * (n % 2 ^ s) ≤ 2 ^ s ∧
      (2 * (n % 2 ^ s) = 2 ^ s → n / 2 ^ s % 2 = 0)) ∨
    (roundLow s n = (n / 2 ^ s + 1) * 2 ^ s ∧ 2 ^ s ≤ 2 * (n % 2 ^ s) ∧
      (2 * (n % 2 ^ s) = 2 ^ s → n / 2 ^ s % 2 = 1)) := by
  by_cases up : 2 ^ s < 2 * (n % 2 ^ s) ∨ (2 * (n % 2 ^ s) = 2 ^ s ∧ n / 2 ^ s % 2 = 1)
  · exact .inr ⟨by simp [roundLow, up], by omega, by omega⟩
  · exact .inl ⟨by simp [roundLow, up], by omega, by omega⟩

theorem two_pow_dvd_roundLow (s n : Nat) : 2 ^ s ∣ roundLow s n :=
  Nat.dvd_mul_left _ _

theorem le_roundLow_add_half (s n : Nat) : 2 * n ≤ 2 * roundLow s n + 2 ^ s := by
  have hn := Nat.div_add_mod' n (2 ^ s)
  obtain ⟨hr, hlow, -⟩ | ⟨hr, -, -⟩ := roundLow_cases s n
  · omega
  · have hlt := Nat.mod_lt n (Nat.two_pow_pos s)
    rw [Nat.succ_mul] at hr
    omega

theorem roundLow_le_add_half (s n : Nat) : 2 * roundLow s n ≤ 2 * n + 2 ^ s := by
  have hn := Nat.div_add_mod' n (2 ^ s)
  obtain ⟨hr, -, -⟩ | ⟨hr, hhigh, -⟩ := roundLow_cases s n
  · omega
  · rw [Nat.succ_mul] at hr
    omega

/-- A number exactly half a place away, on either side, is a tie, and its rounding is even in the last kept place. -/
theorem roundLow_even_of_half {s n : Nat}
    (h : 2 * n = 2 * roundLow s n + 2 ^ s ∨ 2 * roundLow s n = 2 * n + 2 ^ s) : roundLow s n / 2 ^ s % 2 = 0 := by
  have hpos := Nat.two_pow_pos s
  have hn := Nat.div_add_mod' n (2 ^ s)
  obtain ⟨hr, -, heven⟩ | ⟨hr, -, hodd⟩ := roundLow_cases s n
  · have tie : 2 * (n % 2 ^ s) = 2 ^ s := by omega
    rw [hr, Nat.mul_div_cancel _ hpos]
    exact heven tie
  · have tie : 2 * (n % 2 ^ s) = 2 ^ s := by
      have hlt := Nat.mod_lt n hpos
      rw [Nat.succ_mul] at hr
      omega
    have odd := hodd tie
    rw [hr, Nat.mul_div_cancel _ hpos]
    omega

theorem bitLength_le_of_lt_two_pow {p n : Nat} (h : n < 2 ^ p) : bitLength n ≤ p := by
  by_cases h0 : n = 0
  · simp [bitLength, h0]
  · simpa [bitLength, h0] using (Nat.log2_lt h0).2 h

/-- Settles O40: the place facts hold for every number of low bits, and a number of at most `p` bits has none to round away. -/
theorem roundingIsToNearestEven : Obligations.RoundingIsToNearestEven := by
  intro p n
  refine ⟨two_pow_dvd_roundLow _ n, le_roundLow_add_half _ n, roundLow_le_add_half _ n,
    fun _ => roundLow_even_of_half, fun hshort => ?_⟩
  rw [Nat.sub_eq_zero_of_le (bitLength_le_of_lt_two_pow hshort), roundLow_zero]

end Sys2Proof.Proofs
end

section
/-! PROOFS. 10_state.md: the response register, its flags, the handshake, and the session. First what a command word is answered
with and what a step can do, each said once; then the statements, by these. -/

namespace Sys2Proof.Proofs

open Sys2Proof Sys2Proof.Machine Sys2Proof.Laws Sys2Proof.Claims Sys2Proof.Safety

/-! ### The response of a command word -/

/-- The response of the block to a command word, from the word alone (10_state.md R24). A command word decodes to neither bus
byte, so their arm is not reached. -/
def responseTo (w : CmdWord) : Rsp :=
  match decodeCommand w with
  | .ok (.crcv data chk) => crcvRsp data chk
  | .ok (.dec m l c a) => decodeFrame m l c a
  | .ok (.cvrh raw) => converted (rhQ16 raw)
  | .ok (.cvt raw) => converted (tQ16 raw)
  | .ok (.mrh m l c) => mrhRsp m l c
  | .ok (.mt m l c) => mtRsp m l c
  | .ok .busRhHold | .ok .busTHold | .error _ => illegalRsp

/-- A command word is one step, and its response is `responseTo` in every state. -/
@[simp] theorem issue_cmd40 (w : CmdWord) (s : State) : issue (.cmd40 w) s = .next (s.respond (responseTo w)) := by
  obtain ⟨-, h⟩ | ⟨-, h⟩ | ⟨-, h⟩ | ⟨-, h⟩ | ⟨-, h⟩ | ⟨-, h⟩ | ⟨-, h⟩ := decodeCommand_cases w <;>
    simp [issue, decode, execIllegal, responseTo, h]

theorem answers_responseTo (w : CmdWord) : answers w (responseTo w).word :=
  fun s => ⟨responseTo w, rfl, issue_cmd40 w s⟩

@[simp] theorem responseTo_mrh (m l c : Byte) : responseTo (joinCommand opMRH 0#8 m l c) = mrhRsp m l c := by
  simp [responseTo, decodeCommand, opCRCV, opDEC, opCVRH, opCVT, opMRH]

@[simp] theorem responseTo_mt (m l c : Byte) : responseTo (joinCommand opMT 0#8 m l c) = mtRsp m l c := by
  simp [responseTo, decodeCommand, opCRCV, opDEC, opCVRH, opCVT, opMRH, opMT]

/-- The response to a frame under an adjustment, with PHYS `p`: what DEC, MRH and MT have in common. -/
def judgedRsp (m l c a : Byte) (p : Phys) : Rsp := { decodeFrame m l c a with phys := p }

theorem adjustmentOf_dec {w : CmdWord} (h : CmdWord.op w = opDEC) : adjustmentOf w = CmdWord.a w := by
  simp [adjustmentOf, h, opDEC]

theorem adjustmentOf_mrh {w : CmdWord} (h : CmdWord.op w = opMRH) : adjustmentOf w = adjRh := by
  simp [adjustmentOf, h, opMRH, adjRh]

theorem adjustmentOf_mt {w : CmdWord} (h : CmdWord.op w = opMT) : adjustmentOf w = adjT := by
  simp [adjustmentOf, h, opMT, adjT]

theorem not_legalOp {op : Byte} (h : op = 0#8 ∨ 7 ≤ op.toNat) : ¬ legalOp op := by
  unfold legalOp
  bv_omega

theorem legalOp_of_frameOp {op : Byte} (h : frameOp op) : legalOp op := by
  obtain rfl | rfl | rfl := h <;> simp [legalOp]

/-- The four kinds of response: of CRCV; of a frame judged under the word's adjustment, with PHYS 0 for DEC; of the converter; and
of an illegal word. -/
theorem responseTo_cases (w : CmdWord) :
    (CmdWord.op w = 0x01#8 ∧ responseTo w = crcvRsp (CmdWord.m w ++ CmdWord.l w) (CmdWord.c w)) ∨
    (frameOp (CmdWord.op w) ∧ ∃ p : Phys, (CmdWord.op w = 0x02#8 → p = 0#32) ∧
      responseTo w = judgedRsp (CmdWord.m w) (CmdWord.l w) (CmdWord.c w) (adjustmentOf w) p) ∨
    ((CmdWord.op w = 0x03#8 ∨ CmdWord.op w = 0x04#8) ∧ ∃ p : Phys, responseTo w = converted p) ∨
    (¬ legalOp (CmdWord.op w) ∧ responseTo w = illegalRsp) := by
  obtain ⟨ho, h⟩ | ⟨ho, h⟩ | ⟨ho, h⟩ | ⟨ho, h⟩ | ⟨ho, h⟩ | ⟨ho, h⟩ | ⟨ho, h⟩ := decodeCommand_cases w <;>
    simp only [responseTo, h]
  · exact .inl ⟨ho, trivial⟩
  · exact .inr (.inl ⟨.inl ho, 0#32, fun _ => rfl, by rw [adjustmentOf_dec ho]; rfl⟩)
  · exact .inr (.inr (.inl ⟨.inl ho, _, rfl⟩))
  · exact .inr (.inr (.inl ⟨.inr ho, _, rfl⟩))
  · exact .inr (.inl ⟨.inr (.inl ho), _, by simp [ho, opMRH], by rw [adjustmentOf_mrh ho]; rfl⟩)
  · exact .inr (.inl ⟨.inr (.inr ho), _, by simp [ho, opMT], by rw [adjustmentOf_mt ho]; rfl⟩)
  · exact .inr (.inr (.inr ⟨not_legalOp ho, trivial⟩))

/-- `specAsm` of the statements is the model's operand assembly. -/
theorem asm16_eq_specAsm (m l : Byte) : asm16 m l = specAsm m l := by
  have happend (i : Nat) : (m ++ l : Half).getLsbD i = if i < 8 then l.getLsbD i else m.getLsbD (i - 8) :=
    BitVec.getLsbD_append
  ext i hi
  interval_cases i <;> simp [asm16, specAsm, dataMask, ← BitVec.getLsbD_eq_getElem, happend]

/-! The flags and PHYS of a judged frame. -/

@[simp] theorem judgedRsp_valid (m l c a : Byte) (p : Phys) : (judgedRsp m l c a p).valid = true :=
  valid_mk ..

@[simp] theorem judgedRsp_err (m l c a : Byte) (p : Phys) : (judgedRsp m l c a p).err = false :=
  err_mk ..

@[simp] theorem judgedRsp_st (m l c a : Byte) (p : Phys) : (judgedRsp m l c a p).st = l.getLsbD 1 :=
  (st_mk ..).trans (statusBit_eq l)

@[simp] theorem judgedRsp_crcok (m l c a : Byte) (p : Phys) :
    (judgedRsp m l c a p).crcok = (crc8 (specAsm m l) == c ^^^ a) := by
  rw [← asm16_eq_specAsm]
  exact crcok_mk ..

@[simp] theorem judgedRsp_usable (m l c a : Byte) (p : Phys) :
    (judgedRsp m l c a p).usable = (!(judgedRsp m l c a p).st && (judgedRsp m l c a p).crcok) := by
  simp only [judgedRsp, decodeFrame, usable_mk, st_mk, crcok_mk]

@[simp] theorem judgedRsp_reserved (m l c a : Byte) (p : Phys) : (judgedRsp m l c a p).reserved = 0#3 :=
  reserved_mk ..

@[simp] theorem judgedRsp_phys (m l c a : Byte) (p : Phys) : (judgedRsp m l c a p).phys = p := rfl

/-! Every response is legal. -/

theorem legalRsp_crcvRsp (data : Half) (chk : Byte) : legalRsp (crcvRsp data chk) = true := by
  have hflg : ∀ k, legalFlags.contains (flagByte false k false false true) = true := by decide
  simp [legalRsp, crcvRsp, -List.contains_eq_mem, hflg]

theorem legalRsp_judgedRsp (m l c a : Byte) (p : Phys) : legalRsp (judgedRsp m l c a p) = true := by
  have hflg : ∀ k st, legalFlags.contains (flagByte (!st && k) k st false true) = true := by decide
  simp [legalRsp, judgedRsp, decodeFrame, -List.contains_eq_mem, hflg, asm16_low]

theorem legalRsp_converted (p : Phys) : legalRsp (converted p) = true := by
  have hflg : legalFlags.contains (flagByte false false false false true) = true := by decide
  simp [legalRsp, converted, -List.contains_eq_mem, hflg]

theorem legalRsp_zero : legalRsp Rsp.zero = true := by decide

theorem legalRsp_responseTo (w : CmdWord) : legalRsp (responseTo w) = true := by
  obtain ⟨-, h⟩ | ⟨-, p, -, h⟩ | ⟨-, p, h⟩ | ⟨-, h⟩ := responseTo_cases w <;> rw [h]
  · exact legalRsp_crcvRsp _ _
  · exact legalRsp_judgedRsp _ _ _ _ p
  · exact legalRsp_converted p
  · decide

theorem valid_responseTo (w : CmdWord) : (responseTo w).valid = true := by
  obtain ⟨-, h⟩ | ⟨-, p, -, h⟩ | ⟨-, p, h⟩ | ⟨-, h⟩ := responseTo_cases w <;> rw [h]
  · exact valid_mk ..
  · exact judgedRsp_valid ..
  · exact valid_mk ..
  · decide

/-! ### What a step can do -/

/-- What a rising edge with a command in progress can leave behind: its response, or the command with edges still to come. -/
theorem advance_next_cases {w : CmdWord} {n : Nat} {s t : State} (h : advance w n s = .next t) :
    t = s.respond (responseTo w) ∨
    ∃ f : InFlight, 1 ≤ f.remaining ∧ t = { s with rspValid := false, inflight := some f } := by
  by_cases hlast : n ≤ 1
  · rw [advance_last hlast, issue_cmd40] at h
    cases h
    exact .inl rfl
  · rw [advance_more (by omega)] at h
    cases h
    exact .inr ⟨⟨w, n - 1⟩, Nat.le_sub_one_of_lt (by omega), rfl⟩

/-- What a step can do to the block: nothing, reset it, answer a command word, leave a command in progress, or end the pulse of
`rsp_valid` with nothing in progress. -/
inductive BlockMove (s t : State) : Prop
  | kept (same : sameBlock s t)
  | reset (script : ∃ p rest, s.script = .cycle p :: rest ∧ p.rst = true)
      (rsp : t.rsp = Rsp.zero) (rspValid : t.rspValid = false) (inflight : t.inflight = none)
  | answered (w : CmdWord)
      (rsp : t.rsp = responseTo w) (rspValid : t.rspValid = true) (inflight : t.inflight = none)
  | waiting (f : InFlight) (remaining : 1 ≤ f.remaining)
      (rsp : t.rsp = s.rsp) (rspValid : t.rspValid = false) (inflight : t.inflight = some f)
  | idle (rsp : t.rsp = s.rsp) (rspValid : t.rspValid = false) (inflight : t.inflight = none)

/-- `available`, the handle and the stand of `initialize` are the same. -/
def sameSession (s t : State) : Prop :=
  t.available = s.available ∧ t.busHandle = s.busHandle ∧ t.init = s.init

/-- What a step can do to the session: nothing, move an `initialize` that has not finished without a success, complete it with a
success, or start a new session. -/
inductive SessionMove (s t : State) : Prop
  | kept (same : sameSession s t)
  | initMoved (unfinished : s.init ≠ .finished)
      (available : t.available = s.available) (busHandle : t.busHandle = s.busHandle)
  | initSucceeded (script : ∃ rest, s.script = .completeInit :: rest) (suspended : s.init = .suspended)
      (available : t.available = true) (busHandle : t.busHandle.isSome = true) (init : t.init = .finished)
  | newSession (script : ∃ rest, s.script = .newSession :: rest)
      (available : t.available = false) (busHandle : t.busHandle = none)

/-- A clock cycle of the step from `s`, with what is left of its script. A reset in it is one that the script asks for. -/
theorem clock_moves {p : PortInputs} {s t : State} {rest : List HostAction}
    (hreset : p.rst = true → s.script = .cycle p :: rest) (h : clock p { s with script := rest } = .next t) :
    BlockMove s t ∧ SessionMove s t := by
  obtain ⟨hr, hc⟩ | ⟨-, f, -, hc⟩ | ⟨-, -, -, hc⟩ | ⟨-, hi, -, hc⟩ := clock_cases p { s with script := rest } <;>
    rw [hc] at h
  · cases h
    exact ⟨.reset ⟨p, rest, hreset hr, hr⟩ rfl rfl rfl, .kept ⟨rfl, rfl, rfl⟩⟩
  · obtain rfl | ⟨f, hf, rfl⟩ := advance_next_cases h
    · exact ⟨.answered _ rfl rfl rfl, .kept ⟨rfl, rfl, rfl⟩⟩
    · exact ⟨.waiting f hf rfl rfl rfl, .kept ⟨rfl, rfl, rfl⟩⟩
  · obtain rfl | ⟨f, hf, rfl⟩ := advance_next_cases h
    · exact ⟨.answered _ rfl rfl rfl, .kept ⟨rfl, rfl, rfl⟩⟩
    · exact ⟨.waiting f hf rfl rfl rfl, .kept ⟨rfl, rfl, rfl⟩⟩
  · cases h
    exact ⟨.idle rfl rfl hi, .kept ⟨rfl, rfl, rfl⟩⟩

/-- Issuing a code word answers a command word, or leaves the block to a bus transaction. -/
theorem issue_moves {c : CodeWord} {s t : State} {rest : List HostAction}
    (h : issue c { s with script := rest } = .next t) : BlockMove s t ∧ SessionMove s t := by
  cases c with
  | cmd40 w =>
    rw [issue_cmd40] at h
    cases h
    exact ⟨.answered w rfl rfl rfl, .kept ⟨rfl, rfl, rfl⟩⟩
  | bus8 b =>
    obtain ⟨-, hb⟩ | ⟨-, hb⟩ | ⟨-, -, hb⟩ := issue_bus8_cases b { s with script := rest } <;> cases h.symm.trans hb
    · exact ⟨.kept ⟨rfl, rfl, rfl⟩, .kept ⟨rfl, rfl, rfl⟩⟩
    · exact ⟨.kept ⟨rfl, rfl, rfl⟩, .kept ⟨rfl, rfl, rfl⟩⟩

/-- A read accessor leaves the block alone or has it answer the path's command word `word`. -/
theorem readWith_moves {command : Byte → Byte → Byte → Instr} {word : Byte → Byte → Byte → CmdWord}
    (hc : ∀ m l c s, exec (command m l c) s = .next (s.respond (responseTo (word m l c))))
    {byte : Byte} {toFloat : Half → BitVec 32} {answer : BusAnswer} {s t : State} {rest : List HostAction}
    (h : readWith byte command toFloat answer { s with script := rest } = .next t) :
    BlockMove s t ∧ SessionMove s t := by
  obtain ⟨-, hr⟩ | ⟨-, -, hr⟩ | ⟨-, f, -, hr⟩ := readWith_cases hc byte toFloat answer { s with script := rest } <;>
    cases h.symm.trans hr
  · exact ⟨.kept ⟨rfl, rfl, rfl⟩, .kept ⟨rfl, rfl, rfl⟩⟩
  · exact ⟨.kept ⟨rfl, rfl, rfl⟩, .kept ⟨rfl, rfl, rfl⟩⟩
  · exact ⟨.answered (word f.msb f.lsb f.checksum) rfl rfl rfl, .kept ⟨rfl, rfl, rfl⟩⟩

/-- Everything a step can do, to the block and to the session. -/
theorem step_moves {s t : State} (h : step s = .next t) : BlockMove s t ∧ SessionMove s t := by
  cases hs : s.script with
  | nil =>
    rw [step_nil hs] at h
    exact clock_moves (rest := s.script) (fun hr => Bool.noConfusion hr) h
  | cons a rest =>
    rw [step_cons hs] at h
    cases a with
    | issue c => exact issue_moves h
    | cycle p => exact clock_moves (fun _ => hs) h
    | sampleRsp =>
      cases h
      exact ⟨.kept ⟨rfl, rfl, rfl⟩, .kept ⟨rfl, rfl, rfl⟩⟩
    | beginInit =>
      obtain ⟨hi, hb⟩ | ⟨-, hb⟩ := beginInitialize_cases { s with script := rest } <;> cases h.symm.trans hb
      exact ⟨.kept ⟨rfl, rfl, rfl⟩, .initMoved (hi.trans_ne nofun) rfl rfl⟩
    | completeInit =>
      obtain ⟨hi, -, hb⟩ | ⟨hi, -, -, hb⟩ | ⟨hi, -, -, hb⟩ | ⟨-, hb⟩ :=
        completeInitializeOn_cases _ _ (State.draw { s with script := rest }) <;> cases h.symm.trans hb
      · exact ⟨.kept ⟨rfl, rfl, rfl⟩, .initMoved (hi.trans_ne nofun) rfl rfl⟩
      · exact ⟨.kept ⟨rfl, rfl, rfl⟩, .initMoved (hi.trans_ne nofun) rfl rfl⟩
      · exact ⟨.kept ⟨rfl, rfl, rfl⟩, .initSucceeded ⟨rest, hs⟩ hi rfl rfl rfl⟩
    | abandonInit =>
      obtain ⟨hi, hb⟩ | ⟨-, hb⟩ := abandonInitialize_cases { s with script := rest } <;> cases h.symm.trans hb
      exact ⟨.kept ⟨rfl, rfl, rfl⟩, .initMoved (hi.trans_ne nofun) rfl rfl⟩
    | readHumidity => exact readWith_moves (command := .mrh) (word := joinCommand opMRH 0#8) (by simp) h
    | readTemperature => exact readWith_moves (command := .mt) (word := joinCommand opMT 0#8) (by simp) h
    | newSession =>
      cases h
      exact ⟨.kept ⟨rfl, rfl, rfl⟩, .newSession ⟨rest, hs⟩ rfl rfl⟩

/-! ### What every step keeps -/

theorem soundSession_iff (s : State) : soundSession s = true ↔
    s.available = s.busHandle.isSome ∧ (s.available = true → s.init = .finished) := by
  cases h : s.available <;> simp [soundSession, h]

theorem soundPorts_iff (s : State) : soundPorts s = true ↔
    (s.rspValid = true → s.rsp.valid = true ∧ s.inflight = none) := by
  cases h : s.rspValid <;> simp [soundPorts, h]

theorem SessionMove.soundSession {s t : State} (h : SessionMove s t) (hs : soundSession s = true) :
    soundSession t = true := by
  rw [soundSession_iff] at hs ⊢
  obtain ⟨hhandle, hinit⟩ := hs
  cases h with
  | kept same =>
    obtain ⟨h1, h2, h3⟩ := same
    rw [h1, h2, h3]
    exact ⟨hhandle, hinit⟩
  | initMoved unfinished h1 h2 =>
    rw [h1, h2]
    exact ⟨hhandle, fun ha => absurd (hinit ha) unfinished⟩
  | initSucceeded _ _ h1 h2 h3 => simp [h1, h2, h3]
  | newSession _ h1 h2 => simp [h1, h2]

theorem BlockMove.soundBlock {s t : State} (h : BlockMove s t)
    (hs : legalRsp s.rsp = true ∧ legalInFlight s.inflight = true ∧ soundPorts s = true) :
    legalRsp t.rsp = true ∧ legalInFlight t.inflight = true ∧ soundPorts t = true := by
  simp only [soundPorts_iff] at hs ⊢
  obtain ⟨hrsp, hflight, hports⟩ := hs
  cases h with
  | kept same =>
    obtain ⟨h1, h2, h3⟩ := same
    rw [h1, h2, h3]
    exact ⟨hrsp, hflight, hports⟩
  | reset _ h1 h2 h3 => simp [h1, h2, h3, legalRsp_zero, legalInFlight]
  | answered w h1 h2 h3 => simp [h1, h3, legalRsp_responseTo, valid_responseTo, legalInFlight]
  | waiting f hf h1 h2 h3 => simp [h1, h2, h3, hrsp, hf, legalInFlight]
  | idle h1 h2 h3 => simp [h1, h2, h3, hrsp, legalInFlight]

theorem good_iff (s : State) : good s = true ↔
    (legalRsp s.rsp = true ∧ legalInFlight s.inflight = true ∧ soundPorts s = true) ∧ soundSession s = true := by
  simp only [good, Bool.and_eq_true]
  tauto

/-- Settles O56: what a step can do to the block keeps RSP and the ports sound, and what it can do to the session keeps that
sound. -/
theorem goodStatesStayGood : Obligations.GoodStatesStayGood := by
  intro s t hs h
  rw [good_iff] at hs ⊢
  obtain ⟨hblock, hsession⟩ := step_moves h
  exact ⟨hblock.soundBlock hs.1, hsession.soundSession hs.2⟩

/-- Settles O58: a step leaves RSP as it was, zero, or the response of a command word. -/
theorem rspIsAlwaysAResponse : Obligations.RspIsAlwaysAResponse := by
  intro s t hs h
  obtain ⟨hblock, -⟩ := step_moves h
  cases hblock with
  | kept same => rwa [same.1]
  | reset _ hrsp => exact .inl (by rw [hrsp]; rfl)
  | answered w hrsp => exact .inr ⟨w, by rw [hrsp]; exact answers_responseTo w⟩
  | waiting _ _ hrsp => rwa [hrsp]
  | idle hrsp => rwa [hrsp]

/-- Settles O57: RSP is zero, nothing is in progress, and no handle is owned. -/
theorem resetIsGood : Obligations.ResetIsGood :=
  (good_iff State.reset).2 ⟨⟨legalRsp_zero, rfl, rfl⟩, rfl⟩

/-! ### Clock and transaction -/

/-- A rising edge that leaves as many edges as there are cycles without reset still to come: the last of them ends in what the
transaction gives. -/
theorem clockAll_of_advance (w : CmdWord) (p : PortInputs) (ps : List PortInputs) (s : State)
    (hp : clock p s = advance w (ps.length + 1) s) (hrst : ∀ q ∈ ps, q.rst = false) :
    clockAll (p :: ps) s = .next (s.respond (responseTo w)) := by
  induction ps generalizing p s with
  | nil => simp [clockAll, hp, advance_last]
  | cons q qs ih =>
    have hwait : clock p s = .next { s with rspValid := false, inflight := some ⟨w, qs.length + 1⟩ } := by
      rw [hp, advance_more (by simp)]
      rfl
    have hq : q.rst = false := hrst q List.mem_cons_self
    rw [clockAll, hwait]
    simpa using ih q { s with rspValid := false, inflight := some ⟨w, qs.length + 1⟩ } (by simp [clock, hq])
      (fun q' hq' => hrst q' (List.mem_cons_of_mem q hq'))

/-- Settles O6: the accepting cycle, and a cycle with the command in progress, is a rising edge with the remaining cycles to go. -/
theorem clockRefinesTransaction : Obligations.ClockRefinesTransaction := by
  refine ⟨fun w ps s hidle hrst hlen => ⟨responseTo w, issue_cmd40 w s, ?_⟩, fun w ps s hbusy hrst hne => ?_⟩
  · exact clockAll_of_advance w _ ps s (by simp [clock, hidle, hlen]) hrst
  · cases ps with
    | nil => exact absurd rfl hne
    | cons p ps =>
      rw [List.forall_mem_cons] at hrst
      rw [issue_cmd40]
      exact clockAll_of_advance w p ps s (by simp [clock, hrst.1, hbusy]) hrst.2

/-! ### One command, one response, and its fields and flags -/

/-- Settles O7: the response is `responseTo`. -/
theorem oneCommandOneResponse : Obligations.OneCommandOneResponse :=
  fun w => ⟨responseTo w, issue_cmd40 w⟩

/-- Settles O8, one kind of response after another. -/
theorem fieldsNotProducedAreZero : Obligations.FieldsNotProducedAreZero := by
  intro w s
  refine ⟨responseTo w, issue_cmd40 w s, ?_⟩
  obtain ⟨ho, h⟩ | ⟨ho, p, hp, h⟩ | ⟨ho, p, h⟩ | ⟨ho, h⟩ := responseTo_cases w
  · simp [h, ho, crcvRsp, legalOp]
  · obtain ho | ho | ho := ho
    · simp [h, ho, hp ho, legalOp]
    · simp [h, ho, legalOp]
    · simp [h, ho, legalOp]
  · obtain ho | ho := ho
    · simp [h, ho, converted, legalOp]
    · simp [h, ho, converted, legalOp]
  · simp [h, ho, illegalRsp]

/-- Settles O9, one kind of response after another. -/
theorem flagMeanings : Obligations.FlagMeanings := by
  refine ⟨fun w => ⟨responseTo w, issue_cmd40 w, ?_⟩, rfl⟩
  obtain ⟨ho, h⟩ | ⟨ho, p, -, h⟩ | ⟨ho, p, h⟩ | ⟨ho, h⟩ := responseTo_cases w
  · simp [h, ho, crcvRsp, legalOp, frameOp]
  · have hcrcv : CmdWord.op w ≠ 0x01#8 := by
      obtain ho | ho | ho := ho <;> simp [ho]
    simp [h, ho, legalOp_of_frameOp ho, hcrcv]
  · obtain ho | ho := ho
    · simp [h, ho, converted, legalOp, frameOp]
    · simp [h, ho, converted, legalOp, frameOp]
  · have hframe : ¬ frameOp (CmdWord.op w) := mt legalOp_of_frameOp ho
    have hcrcv : CmdWord.op w ≠ 0x01#8 := by
      rintro h1
      simp [h1, legalOp] at ho
    simp [h, ho, hframe, hcrcv, illegalRsp]

/-! ### The session -/

/-- Settles O51: only a successful completion and a new session move `available` or the handle, and no response sees them. -/
theorem availableOnlyThroughInitialize : Obligations.AvailableOnlyThroughInitialize := by
  refine ⟨rfl, fun s t h hfalse hno => ?_, fun s rest hs hsusp hfalse => ?_, fun s t h htrue hno => ?_,
    fun w s b g => ⟨responseTo w, issue_cmd40 w s, issue_cmd40 w _⟩⟩
  · cases (step_moves h).2 with
    | kept same => exact same.1.trans hfalse
    | initMoved _ ha => exact ha.trans hfalse
    | initSucceeded script suspended =>
      obtain ⟨rest, hs⟩ := script
      exact absurd ⟨rest, hs, suspended⟩ hno
    | newSession _ ha => exact ha
  · rw [step_cons hs]
    obtain ⟨-, ho, hc⟩ | ⟨-, ho, ha, hc⟩ | ⟨-, ho, ha, hc⟩ | ⟨hi, -⟩ := completeInitializeOn_cases
      (Config.openSucceeds s.draws) (Config.busAnswer (s.draws + 1)) (State.draw { s with script := rest })
    · exact ⟨_, hc, by simp [hfalse, ho]⟩
    · exact ⟨_, hc, by simp [hfalse, ha]⟩
    · exact ⟨_, hc, by simp [ho, ha]⟩
    · exact absurd hsusp hi
  · cases (step_moves h).2 with
    | kept same =>
      obtain ⟨ha, hh, -⟩ := same
      exact ⟨ha.trans htrue, fun howned => hh ▸ howned⟩
    | initMoved _ ha hh => exact ⟨ha.trans htrue, fun howned => hh ▸ howned⟩
    | initSucceeded _ _ ha hh => exact ⟨ha, fun _ => hh⟩
    | newSession script => exact absurd script hno

/-! ### Reset and step -/

/-- Settles O1: each field of the reset state, and no reading while VALID is 0. -/
theorem resetState : Obligations.ResetState := by
  refine ⟨rfl, rfl, rfl, rfl, rfl, rfl, rfl, rfl, rfl, fun r h => ?_⟩
  simp [Rsp.reading, h]

/-- Settles O52: a step performs the script's head, and performing an issued word that decodes is executing it. -/
theorem stepRunsTheDecodedInstruction : Obligations.StepRunsTheDecodedInstruction := by
  refine ⟨fun s c rest i hs hd => ?_, fun s w rest => step_cons, fun s => step_nil, fun s nbits w i hd => ?_,
    fun s rest => ⟨fun p => step_cons, step_cons, step_cons, step_cons, step_cons, step_cons, step_cons, step_cons⟩⟩
  · rw [step_cons hs]
    exact issue_of_ok hd _
  · rw [step_withFetchWord]
    refine issue_of_ok ?_ s
    unfold decodeTableWord at hd
    cases hw : decode (tableWord nbits w) with
    | ok j => simpa [hw] using hd
    | error e => simp [hw] at hd

end Sys2Proof.Proofs
end

section
/-! PROOFS. 20_memory.md R41: bytes over a byte-wide path, most significant byte first. -/

namespace Sys2Proof.Proofs

open Sys2Proof Sys2Proof.Machine Sys2Proof.Laws

/-- Each field starts where the next one ends, so joining them gives the word again (30_encoding.md R63). -/
@[simp] theorem joinCommand_fields (w : CmdWord) :
    joinCommand (CmdWord.op w) (CmdWord.a w) (CmdWord.m w) (CmdWord.l w) (CmdWord.c w) = w := by
  simp (disch := omega) only [joinCommand, CmdWord.op, CmdWord.a, CmdWord.m, CmdWord.l, CmdWord.c,
    BitVec.extractLsb'_append_extractLsb'_eq_extractLsb']
  exact BitVec.extractLsb'_eq_self

@[simp] theorem bytes_joinCommand (op a m l c : Byte) :
    (CodeWord.cmd40 (joinCommand op a m l c)).bytes = [op, a, m, l, c] := by
  simp [CodeWord.bytes]

/-- The number of bytes tells the format: one for a bus byte, five for a command word (log 24). -/
@[simp] theorem codeWordOfBytes_bytes (w : CodeWord) : codeWordOfBytes w.bytes = .ok w := by
  cases w with
  | cmd40 w => simp [CodeWord.bytes, codeWordOfBytes]
  | bus8 b => rfl

/-- Every byte of the response word lies within one field, so cutting it out skips the fields below
that one and drops those above it. -/
theorem rsp_bytes_eq_map_extractLsb' (r : Rsp) :
    r.bytes = (List.range 10).map (fun k => r.word.extractLsb' (8 * (9 - k)) 8) := by
  simp (disch := omega) only [Rsp.bytes, Rsp.word, List.range, List.range.loop, List.map,
    BitVec.extractLsb'_append_eq_of_le, BitVec.extractLsb'_append_eq_of_add_le]
  simp

/-- Settles O18: a command word is the join of its five bytes, these give it back, and a response is cut byte by byte. -/
theorem mostSignificantByteFirst : Obligations.MostSignificantByteFirst :=
  ⟨fun op a m l c => ⟨rfl, bytes_joinCommand op a m l c⟩, codeWordOfBytes_bytes, rsp_bytes_eq_map_extractLsb'⟩

end Sys2Proof.Proofs
end

section
/-! PROOFS. 30_encoding.md: the fields of a command word, decoding and encoding, the fields a command ignores, the packing of a
response, the assembler's table, and the two bus bytes. -/

namespace Sys2Proof.Proofs

open Sys2Proof Sys2Proof.Machine Sys2Proof.Laws Sys2Proof.Claims Sys2Proof.Safety

/-! ### A 16-bit operand and its two bytes -/

@[simp] theorem append_extractLsb'_bytes (d : Half) : d.extractLsb' 8 8 ++ d.extractLsb' 0 8 = d := by
  rw [BitVec.extractLsb'_append_extractLsb'_eq_extractLsb' (by omega)]
  exact BitVec.extractLsb'_eq_self

@[simp] theorem extractLsb'_append_high (m l : Byte) : (m ++ l : Half).extractLsb' 8 8 = m :=
  BitVec.extractLsb'_append_eq_left

@[simp] theorem extractLsb'_append_low (m l : Byte) : (m ++ l : Half).extractLsb' 0 8 = l :=
  BitVec.extractLsb'_append_eq_right

/-- A command word whose fields M and L are the two bytes of an operand holds that operand whole (R68). -/
theorem joinCommand_extractLsb' (op a : Byte) (d : Half) (c : Byte) :
    joinCommand op a (d.extractLsb' 8 8) (d.extractLsb' 0 8) c = op ++ a ++ d ++ c := by
  conv_rhs => rw [← append_extractLsb'_bytes d]
  rw [joinCommand, BitVec.append_assoc (x₁ := op ++ a)]
  rfl

/-! ### What each OP decodes to (R65) -/

theorem decodeCommand_crcv {w : CmdWord} (h : CmdWord.op w = opCRCV) :
    decodeCommand w = .ok (.crcv (CmdWord.m w ++ CmdWord.l w) (CmdWord.c w)) := by
  simp [decodeCommand, h]

theorem decodeCommand_dec {w : CmdWord} (h : CmdWord.op w = opDEC) :
    decodeCommand w = .ok (.dec (CmdWord.m w) (CmdWord.l w) (CmdWord.c w) (CmdWord.a w)) := by
  simp [decodeCommand, h, opCRCV, opDEC]

theorem decodeCommand_cvrh {w : CmdWord} (h : CmdWord.op w = opCVRH) :
    decodeCommand w = .ok (.cvrh (CmdWord.m w ++ CmdWord.l w)) := by
  simp [decodeCommand, h, opCRCV, opDEC, opCVRH]

theorem decodeCommand_cvt {w : CmdWord} (h : CmdWord.op w = opCVT) :
    decodeCommand w = .ok (.cvt (CmdWord.m w ++ CmdWord.l w)) := by
  simp [decodeCommand, h, opCRCV, opDEC, opCVRH, opCVT]

theorem decodeCommand_mrh {w : CmdWord} (h : CmdWord.op w = opMRH) :
    decodeCommand w = .ok (.mrh (CmdWord.m w) (CmdWord.l w) (CmdWord.c w)) := by
  simp [decodeCommand, h, opCRCV, opDEC, opCVRH, opCVT, opMRH]

theorem decodeCommand_mt {w : CmdWord} (h : CmdWord.op w = opMT) :
    decodeCommand w = .ok (.mt (CmdWord.m w) (CmdWord.l w) (CmdWord.c w)) := by
  simp [decodeCommand, h, opCRCV, opDEC, opCVRH, opCVT, opMRH, opMT]

theorem legalOp_iff (op : Byte) : legalOp op ↔
    op = opCRCV ∨ op = opDEC ∨ op = opCVRH ∨ op = opCVT ∨ op = opMRH ∨ op = opMT := by
  unfold legalOp opCRCV opDEC opCVRH opCVT opMRH opMT
  bv_omega

theorem decodeCommand_illegal {w : CmdWord} (h : ¬ legalOp (CmdWord.op w)) :
    decodeCommand w = .error (.illegalOpcode (CmdWord.op w)) := by
  rw [legalOp_iff] at h
  simp only [not_or] at h
  simp [decodeCommand, h]

theorem exists_decodeCommand_iff (w : CmdWord) : (∃ i, decodeCommand w = .ok i) ↔ legalOp (CmdWord.op w) := by
  constructor
  · rintro ⟨i, h⟩
    by_contra hop
    simp [decodeCommand_illegal hop] at h
  · intro hop
    obtain h | h | h | h | h | h := (legalOp_iff _).1 hop
    exacts [⟨_, decodeCommand_crcv h⟩, ⟨_, decodeCommand_dec h⟩, ⟨_, decodeCommand_cvrh h⟩, ⟨_, decodeCommand_cvt h⟩,
      ⟨_, decodeCommand_mrh h⟩, ⟨_, decodeCommand_mt h⟩]

/-- OP alone fixes the row of the opcode table. -/
theorem row_of_decodeCommand {w : CmdWord} {i : Instr} (h : decodeCommand w = .ok i) :
    i.row = ⟨40, (CmdWord.op w).toNat <<< 32, 0xFF00000000⟩ := by
  obtain ⟨ho, hd⟩ | ⟨ho, hd⟩ | ⟨ho, hd⟩ | ⟨ho, hd⟩ | ⟨ho, hd⟩ | ⟨ho, hd⟩ | ⟨-, hd⟩ := decodeCommand_cases w <;>
    rw [hd] at h <;> cases h <;> rw [ho] <;> rfl

/-- The mask of the six rows leaves of a command word its OP and nothing else. -/
theorem toNat_and_opcodeMask (w : CmdWord) : w.toNat &&& 0xFF00000000 = (CmdWord.op w).toNat <<< 32 := by
  rw [Nat.shiftLeft_eq, ← joinCommand_mask _ (CmdWord.a w) (CmdWord.m w) (CmdWord.l w) (CmdWord.c w), joinCommand_fields]

/-- Settles O14: OP fixes the row, whose mask leaves of a word its OP, and a word decodes exactly when OP is legal. -/
theorem opcodeSelectsTheRow : Obligations.OpcodeSelectsTheRow := by
  refine ⟨fun w i h => ?_, exists_decodeCommand_iff, fun w => decodeCommand_illegal⟩
  rw [row_of_decodeCommand h]
  exact ⟨rfl, rfl, rfl, toNat_and_opcodeMask w⟩

/-! ### Decoding what was encoded -/

theorem decode_encode (i : Instr) : decode (encode i) = .ok i := by
  cases i with
  | crcv data chk => simp [encode, decode, decodeCommand_crcv]
  | dec msb lsb chk adj => simp [encode, decode, decodeCommand_dec]
  | cvrh raw => simp [encode, decode, decodeCommand_cvrh]
  | cvt raw => simp [encode, decode, decodeCommand_cvt]
  | mrh msb lsb chk => simp [encode, decode, decodeCommand_mrh]
  | mt msb lsb chk => simp [encode, decode, decodeCommand_mt]
  | busRhHold => rfl
  | busTHold => rfl

@[simp] theorem tableWord_nbits_value (c : CodeWord) : tableWord c.nbits c.value = c := by
  cases c <;> simp [tableWord, CodeWord.nbits, CodeWord.value]

/-- Settles O15: bytes and table word each give the code word back, and that decodes to the instruction. -/
theorem decodeOfEncode : Obligations.DecodeOfEncode := by
  refine fun i => ⟨decode_encode i, ?_, ?_⟩
  · simp [decodeBytes, encodeBytes, decode_encode]
  · simp [decodeTableWord, decode_encode]

/-! ### The fields a command ignores (R64, R67) -/

/-- A mask acts on each field of a command word by itself. -/
theorem and_joinCommand (w : CmdWord) (op a m l c : Byte) : w &&& joinCommand op a m l c =
    joinCommand (CmdWord.op w &&& op) (CmdWord.a w &&& a) (CmdWord.m w &&& m) (CmdWord.l w &&& l) (CmdWord.c w &&& c) := by
  conv_lhs => rw [← joinCommand_fields w]
  unfold joinCommand
  rw [← BitVec.and_append, ← BitVec.and_append, ← BitVec.and_append, ← BitVec.and_append]

@[simp] theorem byte_and_allOnes (b : Byte) : b &&& 0xFF#8 = b := BitVec.and_allOnes

/-! DEC uses every field; CRCV, MRH and MT all but A; CVRH and CVT only M and L. -/

theorem and_usedBits_dec {w : CmdWord} (h : CmdWord.op w = opDEC) : w &&& usedBits (CmdWord.op w) = w := by
  rw [h]
  exact BitVec.and_allOnes

theorem and_usedBits_checksum {w : CmdWord} (h : CmdWord.op w = opCRCV ∨ CmdWord.op w = opMRH ∨ CmdWord.op w = opMT) :
    w &&& usedBits (CmdWord.op w) = joinCommand (CmdWord.op w) 0#8 (CmdWord.m w) (CmdWord.l w) (CmdWord.c w) := by
  have hmask : usedBits (CmdWord.op w) = joinCommand 0xFF#8 0x00#8 0xFF#8 0xFF#8 0xFF#8 := by
    obtain h | h | h := h <;> rw [h] <;> decide
  rw [hmask, and_joinCommand]
  simp

theorem and_usedBits_converter {w : CmdWord} (h : CmdWord.op w = opCVRH ∨ CmdWord.op w = opCVT) :
    w &&& usedBits (CmdWord.op w) = joinCommand (CmdWord.op w) 0#8 (CmdWord.m w) (CmdWord.l w) 0#8 := by
  have hmask : usedBits (CmdWord.op w) = joinCommand 0xFF#8 0x00#8 0xFF#8 0xFF#8 0x00#8 := by
    obtain h | h := h <;> rw [h] <;> decide
  rw [hmask, and_joinCommand]
  simp

/-- OP itself is used by every word, legal or not. -/
theorem op_and_usedBits (w : CmdWord) : CmdWord.op (w &&& usedBits (CmdWord.op w)) = CmdWord.op w := by
  have hmask (op : Byte) : CmdWord.op (usedBits op) = 0xFF#8 := by
    unfold usedBits
    split_ifs <;> decide
  calc CmdWord.op (w &&& usedBits (CmdWord.op w))
      = CmdWord.op w &&& CmdWord.op (usedBits (CmdWord.op w)) := BitVec.extractLsb'_and
    _ = CmdWord.op w := by rw [hmask, byte_and_allOnes]

/-- Settles O16: each command's used fields are kept whole and the others are cut to zero, field by field. -/
theorem encodeOfDecode : Obligations.EncodeOfDecode := by
  intro w i h
  obtain ⟨ho, hd⟩ | ⟨ho, hd⟩ | ⟨ho, hd⟩ | ⟨ho, hd⟩ | ⟨ho, hd⟩ | ⟨ho, hd⟩ | ⟨-, hd⟩ := decodeCommand_cases w <;>
    rw [hd] at h <;> cases h
  · rw [and_usedBits_checksum (.inl ho), ho]
    simp [encode]
  · simp [encode, and_usedBits_dec ho, ← ho]
  · rw [and_usedBits_converter (.inl ho), ho]
    simp [encode]
  · rw [and_usedBits_converter (.inr ho), ho]
    simp [encode]
  · rw [and_usedBits_checksum (.inr (.inl ho)), ho]
    simp [encode]
  · rw [and_usedBits_checksum (.inr (.inr ho)), ho]
    simp [encode]

/-- A legal word with its ignored fields cut to zero is the encoding of what it decodes to; an illegal one keeps its OP. -/
theorem decodeCommand_and_usedBits (w : CmdWord) :
    decodeCommand (w &&& usedBits (CmdWord.op w)) = decodeCommand w := by
  by_cases hop : legalOp (CmdWord.op w)
  · obtain ⟨i, h⟩ := (exists_decodeCommand_iff w).2 hop
    have hround := decode_encode i
    rwa [encodeOfDecode w i h, ← h] at hround
  · rw [decodeCommand_illegal hop, decodeCommand_illegal (by rwa [op_and_usedBits]), op_and_usedBits]

/-- Settles O12: a word decodes as the word with its ignored fields cut to zero. -/
theorem ignoredFieldsHaveNoEffect : Obligations.IgnoredFieldsHaveNoEffect := by
  intro w v s _ hused
  have hdecode : decodeCommand w = decodeCommand v := by
    rw [← decodeCommand_and_usedBits w, hused, decodeCommand_and_usedBits]
  simp [responseTo, hdecode]

/-! ### Bit 0 of `lsb` (R61) -/

/-- Flipping bits outside a mask changes nothing under it. -/
theorem xor_and_of_and_eq_zero {n : Nat} {x y mask : BitVec n} (h : y &&& mask = 0#n) :
    (x ^^^ y) &&& mask = x &&& mask := by
  ext i hi
  have hbit : (y[i] && mask[i]) = false := by simpa using congrArg (·[i]) h
  simp [Bool.and_xor_distrib_right, hbit]

/-- Neither mask of the decoder, 0xFC and 0x02, takes in bit 0. -/
theorem decodeFrame_flip_bit_zero (m l c a : Byte) : decodeFrame m (l ^^^ 0x01#8) c a = decodeFrame m l c a := by
  have hasm : asm16 m (l ^^^ 0x01#8) = asm16 m l := by
    rw [asm16, xor_and_of_and_eq_zero (by decide)]
    rfl
  have hstatus : statusBit (l ^^^ 0x01#8) = statusBit l := by
    rw [statusBit, xor_and_of_and_eq_zero (by decide)]
    rfl
  rw [decodeFrame, hasm, hstatus]
  rfl

/-- Settles O13: DEC, MRH and MT see a frame through `decodeFrame` only, whose two masks leave bit 0 of `lsb` out. -/
theorem bitZeroHasNoEffect : Obligations.BitZeroHasNoEffect := by
  intro m l c a s
  simp [mrhRsp, mtRsp, decodeFrame_flip_bit_zero]

/-! ### Responses: the illegal word's, and the packing (R66, R70) -/

theorem illegalRsp_eq : illegalRsp = ⟨0x03#8, 0#8, 0#16, 0#16, 0#32⟩ := by decide

/-- Settles O11: no legal OP, so the illegal response; a later response overwrites all that this one wrote. -/
theorem illegalWordIsAnswered : Obligations.IllegalWordIsAnswered := by
  intro w s hrange
  have hop : ¬ legalOp (CmdWord.op w) := by
    unfold legalOp
    omega
  have hdecode := decodeCommand_illegal hop
  refine ⟨hdecode, ?_, by decide, fun v => ?_⟩
  · rw [← illegalRsp_eq]
    exact issue_of_illegal (c := .cmd40 w) hdecode s
  · rw [issue_cmd40, issue_cmd40]
    rfl

/-- A single bit as a field of width 1, so that adjacent flags join as fields do. -/
theorem ofBool_getLsbD {n : Nat} (x : BitVec n) (i : Nat) : BitVec.ofBool (x.getLsbD i) = x.extractLsb' i 1 := by
  ext j hj
  simp [Nat.lt_one_iff.1 hj]

theorem flg_eq_flags (r : Rsp) : r.flg = r.reserved ++ BitVec.ofBool r.usable ++ BitVec.ofBool r.crcok ++
    BitVec.ofBool r.st ++ BitVec.ofBool r.err ++ BitVec.ofBool r.valid := by
  simp (disch := omega) only [Rsp.reserved, Rsp.usable, Rsp.crcok, Rsp.st, Rsp.err, Rsp.valid, ofBool_getLsbD,
    BitVec.extractLsb'_append_extractLsb'_eq_extractLsb']
  exact BitVec.extractLsb'_eq_self.symm

theorem word_fields (r : Rsp) : r.word.extractLsb' 72 8 = r.flg ∧ r.word.extractLsb' 64 8 = r.rem ∧
    r.word.extractLsb' 48 16 = r.asm ∧ r.word.extractLsb' 32 16 = r.val ∧ r.word.extractLsb' 0 32 = r.phys := by
  simp (disch := omega) only [Rsp.word, BitVec.extractLsb'_append_eq_of_le, BitVec.extractLsb'_append_eq_of_add_le]
  simp

theorem ofWord_word (r : Rsp) : Rsp.ofWord r.word = r := by
  obtain ⟨hflg, hrem, hasm, hval, hphys⟩ := word_fields r
  simp only [Rsp.ofWord, hflg, hrem, hasm, hval, hphys]

theorem flg_responseTo (w : CmdWord) : (responseTo w).flg = 0x01#8 ∨ (responseTo w).flg = 0x03#8 ∨
    (responseTo w).flg = 0x05#8 ∨ (responseTo w).flg = 0x09#8 ∨ (responseTo w).flg = 0x0D#8 ∨
    (responseTo w).flg = 0x19#8 := by
  have hlegal : (responseTo w).flg ∈ legalFlags := by
    have hrsp := legalRsp_responseTo w
    simp only [legalRsp, Bool.and_eq_true, List.contains_iff_mem] at hrsp
    obtain ⟨⟨⟨⟨hflg, -⟩, -⟩, -⟩, -⟩ := hrsp
    exact hflg
  have hvalid : (responseTo w).flg ≠ 0x00#8 := by
    intro h
    simpa [Rsp.valid, h] using valid_responseTo w
  simpa [legalFlags, hvalid] using hlegal

/-- Settles O10: the fields' places and the flags' places in their words; a response is legal and VALID, which leaves the six
values. -/
theorem responsePacking : Obligations.ResponsePacking := by
  refine ⟨fun r => ?_, flg_eq_flags, by decide, fun w s => ⟨responseTo w, issue_cmd40 w s, flg_responseTo w⟩, rfl⟩
  obtain ⟨hflg, hrem, hasm, hval, hphys⟩ := word_fields r
  exact ⟨hflg, hrem, hasm, hval, hphys, ofWord_word r⟩

/-! ### The assembler (R71, R72) -/

theorem operandsFit_cons {v w : Nat} {vs ws : List Nat} (h : v < 2 ^ w) :
    operandsFit (v :: vs) (w :: ws) = operandsFit vs ws := by
  simp [operandsFit, h]

theorem assemble_of_instr {l : AsmLine} {i : Instr} (h : Machine.AsmLine.instr l = some i) :
    Machine.AsmLine.assemble l = some (encode i) := by
  simp [AsmLine.assemble, h]

theorem assemble_of_illFormed {l : AsmLine} (h : l.wellFormed = false) : Machine.AsmLine.assemble l = none := by
  simp [AsmLine.assemble, AsmLine.instr, h]

theorem encode_crcv (d : Half) (k : Byte) : encode (.crcv d k) = .cmd40 (0x01#8 ++ 0x00#8 ++ d ++ k) :=
  congrArg CodeWord.cmd40 (joinCommand_extractLsb' _ _ d k)

theorem encode_cvrh (r : Half) : encode (.cvrh r) = .cmd40 (0x03#8 ++ 0x00#8 ++ r ++ 0x00#8) :=
  congrArg CodeWord.cmd40 (joinCommand_extractLsb' _ _ r _)

theorem encode_cvt (r : Half) : encode (.cvt r) = .cmd40 (0x04#8 ++ 0x00#8 ++ r ++ 0x00#8) :=
  congrArg CodeWord.cmd40 (joinCommand_extractLsb' _ _ r _)

/-- The fixed adjustment of a pseudo-instruction, written as DEC's fourth operand, is in range (R72). -/
theorem wellFormed_dec_of_adjustment (m l k : Nat) {j : Nat} (hj : j < 2 ^ 8) :
    AsmLine.wellFormed ⟨.dec, [m, l, k, j]⟩ = operandsFit [m, l, k] [8, 8, 8] := by
  simp [AsmLine.wellFormed, Mnemonic.widths, operandsFit, hj, -Nat.reducePow]

theorem assemble_dech (m l k : Nat) :
    Machine.AsmLine.assemble ⟨.dech, [m, l, k]⟩ = Machine.AsmLine.assemble ⟨.dec, [m, l, k, 0x62]⟩ := by
  simp only [AsmLine.assemble, AsmLine.instr, wellFormed_dec_of_adjustment m l k (j := 0x62) (by decide)]
  rfl

theorem assemble_dect (m l k : Nat) :
    Machine.AsmLine.assemble ⟨.dect, [m, l, k]⟩ = Machine.AsmLine.assemble ⟨.dec, [m, l, k, 0x00]⟩ := by
  simp only [AsmLine.assemble, AsmLine.instr, wellFormed_dec_of_adjustment m l k (j := 0x00) (by decide)]
  rfl

/-- Settles O19, one mnemonic after another. -/
theorem assemblerTable : Obligations.AssemblerTable := by
  refine ⟨fun d k hd hk => ?_, fun m l k j hm hl hk hj => ?_, fun r hr => ?_, fun m l k hm hl hk => ?_,
    fun m l k => ⟨assemble_dech m l k, assemble_dect m l k⟩, fun l => assemble_of_illFormed⟩
  · have hfit : AsmLine.wellFormed ⟨.crcv, [d, k]⟩ = true := (operandsFit_cons hd).trans (operandsFit_cons hk)
    rw [← encode_crcv]
    exact assemble_of_instr (if_pos hfit)
  · have hfit : AsmLine.wellFormed ⟨.dec, [m, l, k, j]⟩ = true :=
      (wellFormed_dec_of_adjustment m l k hj).trans <|
        (operandsFit_cons hm).trans <| (operandsFit_cons hl).trans <| operandsFit_cons hk
    exact assemble_of_instr (if_pos hfit)
  · have hfit : operandsFit [r] [16] = true := operandsFit_cons hr
    rw [← encode_cvrh, ← encode_cvt]
    exact ⟨assemble_of_instr (if_pos hfit), assemble_of_instr (if_pos hfit)⟩
  · have hfit : operandsFit [m, l, k] [8, 8, 8] = true :=
      (operandsFit_cons hm).trans <| (operandsFit_cons hl).trans <| operandsFit_cons hk
    exact ⟨assemble_of_instr (i := .mrh ..) (if_pos hfit), assemble_of_instr (i := .mt ..) (if_pos hfit)⟩

/-! ### Words written out, and the bus bytes (R73) -/

/-- Settles O17, each word decoded. -/
theorem decodingOfWrittenWords : Obligations.DecodingOfWrittenWords :=
  ⟨rfl, rfl, rfl, rfl, rfl, rfl, rfl, rfl, rfl, rfl, rfl, rfl⟩

/-- Settles O46: neither byte is a legal OP, and what issuing a bus byte can do is `issue_bus8_cases`. -/
theorem busBytes : Obligations.BusBytes := by
  refine ⟨rfl, rfl, exec_busRhHold, exec_busTHold, fun b s hrh ht => ?_, fun w hop i h => ?_⟩
  · obtain ⟨hb, -⟩ | ⟨hb, -⟩ | ⟨-, -, h⟩ := issue_bus8_cases b s
    · exact absurd hb hrh
    · exact absurd hb ht
    · exact h
  · have hlegal := (exists_decodeCommand_iff w).1 ⟨i, h⟩
    obtain hop | hop := hop <;> simp [hop, legalOp] at hlegal

end Sys2Proof.Proofs
end

section
/-! PROOFS. 41_crc_validator.md: the remainder function, its table, its other forms, its inverse on the low byte, and the command
CRCV. An iteration of the loop XORs in a multiple of the generator that its dividend selects linearly, and it clears the bit it
tests; the rest follows from these two facts. -/

namespace Sys2Proof.Proofs

open Sys2Proof Sys2Proof.Machine Sys2Proof.Laws Sys2Proof.Claims

/-! ### One iteration -/

/-- Two conditional summands under one XORed condition: what makes every form of the remainder linear. -/
theorem ite_xor_zero {v : Nat} (p q : Bool) (g : BitVec v) :
    (if p ^^ q then g else 0#v) = (if p then g else 0#v) ^^^ (if q then g else 0#v) := by
  cases p <;> cases q <;> simp

theorem crcStep_eq_xor (d : Dividend) (i : Nat) :
    crcStep d i = d ^^^ if d.getLsbD (23 - i) then poly <<< (15 - i) else 0#24 := by
  cases h : d.getLsbD (23 - i) <;> simp [crcStep, h]

theorem crcStep_xor (d e : Dividend) (i : Nat) : crcStep (d ^^^ e) i = crcStep d i ^^^ crcStep e i := by
  simp only [crcStep_eq_xor, BitVec.getLsbD_xor, ite_xor_zero]
  ac_rfl

/-- The generator in place for iteration `i` has the tested bit 1 and nothing above it. -/
theorem getLsbD_poly_shiftLeft {i p : Nat} (hi : i < 16) (hp : 23 - i ≤ p) :
    (poly <<< (15 - i)).getLsbD p = decide (p = 23 - i) := by
  by_cases h : p < 24
  · have table : ∀ i < 16, ∀ p < 24, 23 - i ≤ p → (poly <<< (15 - i)).getLsbD p = decide (p = 23 - i) := by decide
    exact table i hi p h hp
  · rw [BitVec.getLsbD_of_ge _ _ (by omega), eq_comm, decide_eq_false_iff_not]
    omega

/-- An iteration leaves the bits above the tested one alone (R83). -/
theorem getLsbD_crcStep_above (d : Dividend) {i p : Nat} (hi : i < 16) (hp : 23 - i < p) :
    (crcStep d i).getLsbD p = d.getLsbD p := by
  cases h : d.getLsbD (23 - i) with
  | false => rw [crcStep_of_clear h]
  | true => simp [crcStep_of_set h, getLsbD_poly_shiftLeft hi hp.le, hp.ne']

/-- An iteration clears the bit it tests (R83). -/
theorem getLsbD_crcStep_tested (d : Dividend) {i : Nat} (hi : i < 16) : (crcStep d i).getLsbD (23 - i) = false := by
  cases h : d.getLsbD (23 - i) with
  | false => rw [crcStep_of_clear h, h]
  | true => simp [crcStep_of_set h, getLsbD_poly_shiftLeft hi le_rfl, h]

/-- An iteration leaves the bits below the generator's place alone. -/
theorem getLsbD_crcStep_below (d : Dividend) {i p : Nat} (hp : p < 15 - i) :
    (crcStep d i).getLsbD p = d.getLsbD p := by
  cases h : d.getLsbD (23 - i) with
  | false => rw [crcStep_of_clear h]
  | true => simp [crcStep_of_set h, hp]

/-- The generator's low bit is 1, so a dividend that was 0 there is not cancelled by it. -/
theorem eq_zero_of_crcStep_eq_zero {d : Dividend} {i : Nat} (hi : i < 16) (hlow : d.getLsbD (15 - i) = false)
    (h : crcStep d i = 0#24) : d = 0#24 := by
  cases ht : d.getLsbD (23 - i) with
  | false => rwa [crcStep_of_clear ht] at h
  | true =>
    have hone : ∀ i < 16, (poly <<< (15 - i)).getLsbD (15 - i) = true := by decide
    rw [crcStep_of_set ht] at h
    rw [xor_eq_zero_iff.1 h, hone i hi] at hlow
    cases hlow

/-! ### The loop -/

/-- After `n` iterations nothing is left at or above bit `24 - n` (R83). -/
theorem getLsbD_crcLoop_top (d : Dividend) {n p : Nat} (hn : n ≤ 16) (hp : 24 - n ≤ p) :
    (crcLoop n d).getLsbD p = false := by
  induction n with
  | zero => exact BitVec.getLsbD_of_ge _ _ hp
  | succ n ih =>
    rw [crcLoop_succ]
    obtain rfl | hlt : p = 23 - n ∨ 23 - n < p := by omega
    · exact getLsbD_crcStep_tested _ hn
    · rw [getLsbD_crcStep_above _ hn hlt]
      exact ih (by omega) (by omega)

/-- The loop has not yet come to the bits below the place of the last iteration's generator. -/
theorem getLsbD_crcLoop_below (d : Dividend) {n p : Nat} (hp : p < 16 - n) :
    (crcLoop n d).getLsbD p = d.getLsbD p := by
  induction n with
  | zero => rfl
  | succ n ih =>
    rw [crcLoop_succ, getLsbD_crcStep_below _ (by omega)]
    exact ih (by omega)

theorem crcLoop_xor (n : Nat) (d e : Dividend) : crcLoop n (d ^^^ e) = crcLoop n d ^^^ crcLoop n e := by
  induction n with
  | zero => rfl
  | succ n ih => simp only [crcLoop_succ, ih, crcStep_xor]

/-- A dividend with nothing at or above bit `24 - n` passes `n` iterations unchanged. -/
theorem crcLoop_of_clear {n : Nat} {d : Dividend} (h : ∀ p, 24 - n ≤ p → d.getLsbD p = false) : crcLoop n d = d := by
  induction n with
  | zero => rfl
  | succ n ih =>
    rw [crcLoop_succ, ih fun p hp => h p (by omega)]
    exact crcStep_of_clear (h _ (by omega))

theorem crcLoop_eq_foldl (n : Nat) (d : Dividend) : crcLoop n d = (List.range n).foldl crcStep d := by
  induction n with
  | zero => rfl
  | succ n ih => simp [crcLoop_succ, ih, List.range_succ]

theorem crc8_eq_setWidth (data : Half) : crc8 data = (crcLoop 16 (data ++ 0#8)).setWidth 8 :=
  (BitVec.setWidth_eq_extractLsb' (by decide)).symm

/-- The remainder is all that is left of the dividend (R83). -/
theorem crcLoop_sixteen (data : Half) : crcLoop 16 (data ++ 0#8) = (crc8 data).setWidth 24 := by
  refine BitVec.eq_of_getLsbD_eq fun p hp => ?_
  by_cases h : p < 8
  · simp [crc8_eq_setWidth, h, hp]
  · simp [crc8_eq_setWidth, h, getLsbD_crcLoop_top _ le_rfl (Nat.le_of_not_lt h)]

theorem append_zero_eq_shiftLeft (data : Half) : (data ++ 0#8 : Dividend) = data.setWidth 24 <<< 8 := by
  simpa using BitVec.setWidth_append_eq_shiftLeft_setWidth_or (b := data) (b' := 0#8) (w'' := 24)

/-- Settles O20: the model's recursion is the loop over the iterations in order. -/
theorem crcIsTheLoop : Obligations.CrcIsTheLoop := by
  refine ⟨fun data => ?_, by decide⟩
  rw [crc8_eq_setWidth, crcLoop_eq_foldl, append_zero_eq_shiftLeft]
  rfl

/-- Settles O21, by what one iteration does to the bits above, at and below the tested one. -/
theorem crcLoopClearsFromTheTop : Obligations.CrcLoopClearsFromTheTop :=
  ⟨fun _ _ _ hn hp _ => getLsbD_crcLoop_top _ hn hp, fun d _ _ => getLsbD_crcStep_above d,
    fun d _ => getLsbD_crcStep_tested d, fun _ _ _ => crcStep_of_clear, crcLoop_sixteen⟩

/-! ### Linearity and the table (R84) -/

theorem crc8_xor (a b : Half) : crc8 (a ^^^ b) = crc8 a ^^^ crc8 b := by
  simp only [crc8_eq_setWidth, append_zero_eq_shiftLeft, BitVec.setWidth_xor, BitVec.shiftLeft_xor_distrib, crcLoop_xor]

@[simp] theorem crc8_zero : crc8 0#16 = 0#8 := by
  simpa using crc8_xor 0#16 0#16

/-- The bits below `n + 1` are those below `n` and bit `n`. -/
theorem setWidth_setWidth_succ_eq_xor (data : Half) (n : Nat) : (data.setWidth (n + 1)).setWidth 16 =
    (data.setWidth n).setWidth 16 ^^^ if data.getLsbD n then BitVec.twoPow 16 n else 0#16 := by
  ext p hp
  by_cases hpn : p = n
  · subst hpn
    cases h : data.getLsbD p <;> simpa [hp] using h
  · have hlt : p < n + 1 ↔ p < n := by omega
    cases h : data.getLsbD n <;> simp [hpn, hlt]

/-- A linear function of a 16-bit value is the XOR of its values at the single bits that are 1. -/
theorem linear_eq_foldl {f : Half → Byte} (hf : ∀ a b, f (a ^^^ b) = f a ^^^ f b) (data : Half) : f data =
    ((List.range 16).map fun k => if data.getLsbD k then f (BitVec.twoPow 16 k) else 0#8).foldl (· ^^^ ·) 0#8 := by
  have hzero : f 0#16 = 0#8 := by simpa using hf 0#16 0#16
  have hlow (n : Nat) : f ((data.setWidth n).setWidth 16) =
      ((List.range n).map fun k => if data.getLsbD k then f (BitVec.twoPow 16 k) else 0#8).foldl (· ^^^ ·) 0#8 := by
    induction n with
    | zero => simpa [BitVec.of_length_zero] using hzero
    | succ n ih => simp [setWidth_setWidth_succ_eq_xor, hf, ih, List.range_succ, apply_ite f, hzero]
  simpa using hlow 16

/-- Settles O22: the table's entries are the remainders of the single bits. -/
theorem crcIsLinear : Obligations.CrcIsLinear := by
  refine ⟨crc8_xor, crc8_zero, fun data => ?_⟩
  have table : (List.range 16).map (fun k => crc8 (BitVec.twoPow 16 k)) =
    [0x31#8, 0x62#8, 0xC4#8, 0xB9#8, 0x43#8, 0x86#8, 0x3D#8, 0x7A#8,
     0xF4#8, 0xD9#8, 0x83#8, 0x37#8, 0x6E#8, 0xDC#8, 0x89#8, 0x23#8] := by decide +kernel
  rw [← table, List.zipWith_map_right, List.zipWith_self]
  exact linear_eq_foldl crc8_xor data

/-! ### The shift-register form (R86) -/

theorem lfsrStep_eq_xor (data : Half) (k : Nat) (c : Byte) :
    lfsrStep data k c = (c <<< 1) ^^^ if c.getLsbD 7 ^^ data.getLsbD k then 0x31#8 else 0#8 := by
  rw [lfsrStep, apply_ite (c <<< 1 ^^^ ·), BitVec.xor_zero]

theorem lfsrStep_xor (a b : Half) (k : Nat) (c e : Byte) :
    lfsrStep (a ^^^ b) k (c ^^^ e) = lfsrStep a k c ^^^ lfsrStep b k e := by
  simp only [lfsrStep_eq_xor, BitVec.getLsbD_xor, BitVec.shiftLeft_xor_distrib, ite_xor_zero]
  ac_rfl

theorem lfsrLoop_xor (a b : Half) (n : Nat) (c e : Byte) :
    lfsrLoop (a ^^^ b) n (c ^^^ e) = lfsrLoop a n c ^^^ lfsrLoop b n e := by
  induction n generalizing c e with
  | zero => rfl
  | succ n ih => simp only [lfsrLoop, lfsrStep_xor, ih]

theorem crc8ShiftRegister_xor (a b : Half) :
    crc8ShiftRegister (a ^^^ b) = crc8ShiftRegister a ^^^ crc8ShiftRegister b :=
  lfsrLoop_xor a b 16 0#8 0#8

theorem lfsrLoop_eq_foldl (data : Half) (n : Nat) (c : Byte) :
    lfsrLoop data n c = (List.range n).reverse.foldl (fun c k => lfsrStep data k c) c := by
  induction n generalizing c with
  | zero => rfl
  | succ n ih => simp [lfsrLoop, ih, List.range_succ]

/-- Settles O25: both forms are linear, and they agree at the sixteen single bits. -/
theorem shiftRegisterFormAgrees : Obligations.ShiftRegisterFormAgrees := by
  refine fun data => ⟨?_, lfsrLoop_eq_foldl data 16 0#8⟩
  have hbits : ∀ k ∈ List.range 16, crc8 (BitVec.twoPow 16 k) = crc8ShiftRegister (BitVec.twoPow 16 k) := by
    decide +kernel
  rw [linear_eq_foldl crc8_xor, linear_eq_foldl crc8ShiftRegister_xor,
    List.map_congr_left fun k hk => by rw [hbits k hk]]

/-! ### The polynomial reading (R84) -/

theorem generatorTimes_xor (q p : Half) (n : Nat) :
    generatorTimes (q ^^^ p) n = generatorTimes q n ^^^ generatorTimes p n := by
  induction n with
  | zero => exact BitVec.xor_self.symm
  | succ n ih =>
    simp only [generatorTimes, ih, BitVec.getLsbD_xor, ite_xor_zero]
    ac_rfl

theorem generatorTimes_twoPow : ∀ k < 16, generatorTimes (BitVec.twoPow 16 k) 16 = poly <<< k := by
  decide +kernel

/-- What the loop has taken off the dividend after `n` iterations is a multiple of the generator. -/
theorem exists_generatorTimes_xor_crcLoop (d : Dividend) {n : Nat} (hn : n ≤ 16) :
    ∃ q : Half, d = generatorTimes q 16 ^^^ crcLoop n d := by
  induction n with
  | zero => exact ⟨0#16, by simp [show generatorTimes 0#16 16 = 0#24 by decide]⟩
  | succ n ih =>
    obtain ⟨q, hq⟩ := ih (by omega)
    cases ht : (crcLoop n d).getLsbD (23 - n) with
    | false => exact ⟨q, by rwa [crcLoop_succ, crcStep_of_clear ht]⟩
    | true =>
      refine ⟨q ^^^ BitVec.twoPow 16 (15 - n), ?_⟩
      rw [crcLoop_succ, crcStep_of_set ht, generatorTimes_xor, generatorTimes_twoPow _ (by omega)]
      rwa [BitVec.xor_assoc, ← xor_assoc (poly <<< _), xor_xor_cancel_comm]

theorem crcLoop_poly_shiftLeft : ∀ k < 16, crcLoop 16 (poly <<< k) = 0#24 := by
  decide +kernel

/-- The loop takes every multiple of the generator to 0. -/
theorem crcLoop_generatorTimes (q : Half) {n : Nat} (hn : n ≤ 16) : crcLoop 16 (generatorTimes q n) = 0#24 := by
  have hzero : crcLoop 16 0#24 = 0#24 := crcLoop_of_clear fun _ _ => BitVec.getLsbD_zero
  induction n with
  | zero => exact hzero
  | succ n ih =>
    rw [generatorTimes, crcLoop_xor, ih (by omega), apply_ite (crcLoop 16), crcLoop_poly_shiftLeft n hn, hzero, ite_self,
      BitVec.xor_self]

/-- Settles O23: the loop subtracts multiples of the generator, and it takes a multiple plus `r` to `r`. -/
theorem crcIsThePolynomialRemainder : Obligations.CrcIsThePolynomialRemainder := by
  refine ⟨fun data => ?_, fun data q r h => ?_⟩
  · rw [← crcLoop_sixteen]
    exact exists_generatorTimes_xor_crcLoop _ le_rfl
  · have hr : crcLoop 16 (r.setWidth 24) = r.setWidth 24 := crcLoop_of_clear fun p hp => by
      rw [BitVec.getLsbD_setWidth, BitVec.getLsbD_of_ge _ _ hp, Bool.and_false]
    rw [crc8_eq_setWidth, h, crcLoop_xor, crcLoop_generatorTimes q le_rfl, hr]
    simp

/-! ### One low byte for each remainder (R84) -/

/-- The loop takes no dividend to 0 whose bits other than 15 down to 8 are 0, except 0. -/
theorem eq_zero_of_crcLoop_eq_zero {d : Dividend} (hhigh : ∀ p, 16 ≤ p → d.getLsbD p = false)
    (hlow : ∀ p < 8, d.getLsbD p = false) {n : Nat} (hn : n ≤ 16) (h : crcLoop n d = 0#24) : d = 0#24 := by
  induction n with
  | zero => exact h
  | succ n ih =>
    by_cases h8 : n < 8
    · rwa [crcLoop_of_clear fun p hp => hhigh p (by omega)] at h
    · have hbit : (crcLoop n d).getLsbD (15 - n) = false := by
        rw [getLsbD_crcLoop_below d (by omega)]
        exact hlow _ (by omega)
      exact ih (by omega) (eq_zero_of_crcStep_eq_zero hn hbit h)

/-- The remainder of a value without a high byte is 0 only where the value is. -/
theorem eq_zero_of_crc8_eq_zero {data : Half} (hhigh : ∀ p, 8 ≤ p → data.getLsbD p = false) (h : crc8 data = 0#8) :
    data = 0#16 := by
  have hloop : crcLoop 16 (data ++ 0#8) = 0#24 := by
    rw [crcLoop_sixteen, h]
    rfl
  have hdividend : (data ++ 0#8 : Dividend) = 0#24 := by
    refine eq_zero_of_crcLoop_eq_zero (fun p hp => ?_) (fun p hp => ?_) le_rfl hloop
    · simp [append_zero_eq_shiftLeft, hhigh (p - 8) (by omega)]
    · simp [append_zero_eq_shiftLeft, hp]
  exact (BitVec.append_left_inj 0#8).1 hdividend

theorem crc8_append (hi lo : Byte) : crc8 (hi ++ lo) = crc8 (hi ++ 0#8) ^^^ crc8 (0#8 ++ lo) := by
  have hsplit : ((hi ++ 0#8) ^^^ (0#8 ++ lo) : BitVec (8 + 8)) = hi ++ lo :=
    BitVec.xor_append.trans (by rw [BitVec.xor_zero, BitVec.zero_xor])
  exact (congrArg crc8 hsplit).symm.trans (crc8_xor _ _)

theorem crc8_lowByte_injective : Function.Injective fun lo : Byte => crc8 (0#8 ++ lo) := by
  intro a b h
  have hhigh (lo : Byte) {p : Nat} (hp : 8 ≤ p) : (0#8 ++ lo : Half).getLsbD p = false :=
    BitVec.getLsbD_append.trans (by simp [hp])
  have hzero : (0#8 ++ a : Half) ^^^ (0#8 ++ b) = 0#16 :=
    eq_zero_of_crc8_eq_zero (fun p hp => by rw [BitVec.getLsbD_xor, hhigh a hp, hhigh b hp, Bool.xor_false])
      ((crc8_xor _ _).trans (xor_eq_zero_iff.2 h))
  exact (BitVec.append_right_inj 0#8).1 (xor_eq_zero_iff.1 hzero)

/-- Settles O24: on the low byte the remainder is injective, so it is a bijection of the bytes. -/
theorem eachRemainderFromOneLowByte : Obligations.EachRemainderFromOneLowByte := by
  intro r hi
  have : Finite Byte := Finite.of_equiv _ BitVec.equivFin.symm.toEquiv
  obtain ⟨lo, hlo, huniq⟩ :=
    (Finite.injective_iff_bijective.1 crc8_lowByte_injective).existsUnique (crc8 (hi ++ 0#8) ^^^ r)
  refine ⟨lo, ?_, fun lo' h => huniq lo' ?_⟩
  · rw [crc8_append, hlo, xor_cancel_left]
  · change crc8 (0#8 ++ lo') = crc8 (hi ++ 0#8) ^^^ r
    rw [← h, crc8_append hi lo', xor_cancel_left]

/-! ### The command CRCV (R82, R85) -/

theorem crcvRsp_eq (data : Half) (chk : Byte) :
    crcvRsp data chk = ⟨if crc8 data = chk then 0x09#8 else 0x01#8, crc8 data, 0#16, 0#16, 0#32⟩ := by
  have hflg : ∀ k, flagByte false k false false true = if k then 0x09#8 else 0x01#8 := by decide
  simp only [crcvRsp, hflg, beq_iff_eq]

/-- Settles O26, by the response of CRCV, which is the same in every state. -/
theorem crcvResult : Obligations.CrcvResult := by
  refine ⟨fun a m l c => ?_, fun data chk s => ?_, crc8_zero, by decide +kernel, ?_, ?_⟩
  · exact (decodeCommand_crcv (op_join opCRCV a m l c)).trans (by rw [m_join, l_join, c_join])
  · rw [exec_crcv, crcvRsp_eq]
    rfl
  · rw [← show (responseTo 0x01006A5CB8#40).word = 0x09B80000000000000000#80 by decide +kernel]
    exact answers_responseTo _
  · rw [← show (responseTo 0x01006A5CB9#40).word = 0x01B80000000000000000#80 by decide +kernel]
    exact answers_responseTo _

theorem crcvRsp_crcok (data : Half) (chk : Byte) : (crcvRsp data chk).crcok = true ↔ chk = crc8 data := by
  rw [crcvRsp, crcok_mk, beq_iff_eq, eq_comm]

/-- Settles O27: CRCOK is the comparison with the remainder, and a flipped bit changes a checksum. -/
theorem validatorAcceptsExactlyTheRemainder : Obligations.ValidatorAcceptsExactlyTheRemainder := by
  refine fun data s => ⟨⟨_, exec_crcv .., ?_⟩, fun k hk => ⟨_, exec_crcv .., ?_⟩, fun chk => ⟨_, exec_crcv .., ?_⟩⟩
  · exact (crcvRsp_crcok data _).2 rfl
  · have hbit : ∀ k < 8, 1#8 <<< k ≠ 0#8 := by decide
    rw [Bool.eq_false_iff]
    exact fun h => hbit k hk (xor_left_eq_self_iff.1 ((crcvRsp_crcok data _).1 h))
  · exact crcvRsp_crcok data chk

end Sys2Proof.Proofs
end

section
/-! PROOFS. 42_measurement_decoder.md: the assembled value, the command DEC, HA's properties of the decoder, and the checksum
adjustment of the humidity path. -/

namespace Sys2Proof.Proofs

open Sys2Proof Sys2Proof.Machine Sys2Proof.Laws Sys2Proof.Claims

/-! ### The assembled value (R90) -/

/-- Values without a common bit are joined by XOR as by OR. -/
theorem or_eq_xor_of_and_eq_zero {n : Nat} {x y : BitVec n} (h : x &&& y = 0#n) : x ||| y = x ^^^ y := by
  have hbool : ∀ a b : Bool, (a && b) = false → (a || b) = (a ^^ b) := by decide
  ext i hi
  have hbit : (x[i] && y[i]) = false := by simpa using congrArg (·[i]) h
  simpa using hbool _ _ hbit

/-- The assembled value is `msb` followed by `lsb` under its mask. -/
theorem asm16_eq_append (m l : Byte) : asm16 m l = m ++ (l &&& dataMask) := by
  rw [asm16, ← BitVec.setWidth_append_eq_shiftLeft_setWidth_or, BitVec.setWidth_eq]

/-- The two parts that `asm16` joins have no common bit. -/
theorem asm16_parts_disjoint (m l : Byte) : (m.setWidth 16 <<< 8) &&& (l &&& dataMask).setWidth 16 = 0#16 := by
  ext i hi
  by_cases h : i < 8
  · simp [h]
  · simp [BitVec.getLsbD_of_ge l i (by omega)]

theorem toNat_and_dataMask : ∀ l : Byte, (l &&& dataMask).toNat = 4 * (l.toNat / 4) := by
  decide +kernel

theorem asm16_toNat (m l : Byte) : (asm16 m l).toNat = 256 * m.toNat + 4 * (l.toNat / 4) := by
  have hlow : (l &&& dataMask).toNat < 2 ^ 8 := BitVec.isLt _
  rw [asm16_eq_append, BitVec.toNat_append, ← Nat.shiftLeft_add_eq_or_of_lt hlow, toNat_and_dataMask]
  omega

/-- Settles O28: the bits from the two parts laid side by side, the rest from the number and from the parts being disjoint. -/
theorem assembledValue : Obligations.AssembledValue := by
  intro m l
  have hnum := asm16_toNat m l
  refine ⟨?_, ?_, asm16_low m l, hnum, by omega, ?_, ?_, ?_⟩
  · rw [asm16_eq_append, extractLsb'_append_high]
  · rw [asm16_eq_append, BitVec.extractLsb'_append_eq_of_add_le (by omega), BitVec.extractLsb'_and]
    exact BitVec.and_allOnes
  · rw [BitVec.le_def, BitVec.toNat_ofNat]
    omega
  · exact (BitVec.add_eq_or_of_and_eq_zero _ _ (asm16_parts_disjoint m l)).symm
  · exact or_eq_xor_of_and_eq_zero (asm16_parts_disjoint m l)

/-! ### The response to a judged frame (R93, R94) -/

theorem judgedRsp_eq_specFrameRsp (m l c a : Byte) (p : Phys) : judgedRsp m l c a p = specFrameRsp m l (c ^^^ a) p := by
  have hflg : ∀ st k, flagByte (!st && k) k st false true = specFlg st k := by decide
  simp [judgedRsp, decodeFrame, adjusted, specFrameRsp, specVal, hflg, statusBit_eq, asm16_eq_specAsm, beq_eq_decide]

@[simp] theorem judgedRsp_asm (m l c a : Byte) (p : Phys) : (judgedRsp m l c a p).asm = asm16 m l := rfl

theorem judgedRsp_val (m l c a : Byte) (p : Phys) :
    (judgedRsp m l c a p).val = if (judgedRsp m l c a p).usable then asm16 m l else 0#16 := by
  simp only [judgedRsp, decodeFrame, usable_mk]

theorem judgedRsp_crcok_iff (m l c a : Byte) (p : Phys) :
    (judgedRsp m l c a p).crcok = true ↔ c = crc8 (asm16 m l) ^^^ a := by
  rw [judgedRsp_crcok, ← asm16_eq_specAsm, beq_iff_eq]
  exact ⟨fun h => by rw [h, xor_cancel_right], fun h => by rw [h, xor_cancel_right]⟩

/-! DEC, MRH and MT answer with a judged frame. -/

theorem decodeFrame_eq_judgedRsp (m l c a : Byte) : decodeFrame m l c a = judgedRsp m l c a 0#32 := rfl

theorem mrhRsp_eq_judgedRsp (m l c : Byte) :
    mrhRsp m l c = judgedRsp m l c adjRh (rhQ16 (decodeFrame m l c adjRh).val) := rfl

theorem mtRsp_eq_judgedRsp (m l c : Byte) :
    mtRsp m l c = judgedRsp m l c adjT (tQ16 (decodeFrame m l c adjT).val) := rfl

/-- A word is answered with what its response packs to. -/
theorem answers_of_word_eq {w : CmdWord} {v : RspWord} (h : (responseTo w).word = v) : answers w v :=
  h ▸ answers_responseTo w

/-- Settles O29: the response of DEC is the judged frame with PHYS 0, and the words are answered by `responseTo`. -/
theorem decResult : Obligations.DecResult := by
  refine ⟨fun a m l c => ?_, fun m l c a s => ?_, fun m l c a => ?_, ?_, ?_, ?_⟩
  · exact (decodeCommand_dec (op_join opDEC a m l c)).trans (by rw [m_join, l_join, c_join, a_join])
  · rw [exec_dec, decodeFrame_eq_judgedRsp, judgedRsp_eq_specFrameRsp]
    rfl
  · rw [BitVec.xor_assoc, BitVec.xor_eq_zero_iff]
  · exact answers_of_word_eq (by decide +kernel)
  · exact answers_of_word_eq (by decide +kernel)
  · exact answers_of_word_eq (by decide +kernel)

/-! ### HA's properties of the decoder (R97) -/

/-- A reading that does not count has VAL 0. -/
theorem judgedRsp_val_of_not_usable {m l c a : Byte} {p : Phys} (h : (judgedRsp m l c a p).usable = false) :
    (judgedRsp m l c a p).val = 0#16 := by
  simp [judgedRsp_val, h]

/-- Settles O30: a set status bit or a wrong checksum takes USABLE away, and with it VAL. -/
theorem decoderProperties : Obligations.DecoderProperties := by
  refine ⟨fun m l c a s hst => ⟨_, exec_dec .., ?_⟩, fun m l a s hst => ⟨_, exec_dec .., ?_⟩,
    fun m l c a s hst hchk => ⟨_, exec_dec .., ?_⟩⟩ <;>
    rw [respond_rsp, decodeFrame_eq_judgedRsp]
  · have husable : (judgedRsp m l c a 0#32).usable = false := by simp [hst]
    exact ⟨(judgedRsp_st ..).trans hst, husable, judgedRsp_val_of_not_usable husable⟩
  · have hok := (judgedRsp_crcok_iff m l _ a 0#32).2 rfl
    have husable : (judgedRsp m l (crc8 (asm16 m l) ^^^ a) a 0#32).usable = true := by
      rw [judgedRsp_usable, judgedRsp_st, hst, hok]
      rfl
    exact ⟨husable, by rw [judgedRsp_val, husable, if_pos rfl], judgedRsp_asm ..⟩
  · have hok : (judgedRsp m l c a 0#32).crcok = false := by
      rw [Bool.eq_false_iff]
      exact fun h => hchk ((judgedRsp_crcok_iff m l c a 0#32).1 h)
    have husable : (judgedRsp m l c a 0#32).usable = false := by rw [judgedRsp_usable, hok, Bool.and_false]
    exact ⟨hok, husable, judgedRsp_val_of_not_usable husable⟩

/-! ### The status bit's remainder (R96) -/

theorem crc8_statusBit : crc8 0x0002#16 = adjRh := by
  decide +kernel

/-- Bit 1 of an assembled value is clear, so setting it is an XOR. -/
theorem asm16_or_two (m l : Byte) : asm16 m l ||| 0x0002#16 = asm16 m l ^^^ 0x0002#16 := by
  have hmask : (l &&& dataMask) &&& 0x02#8 = 0#8 := by
    rw [BitVec.and_assoc]
    exact BitVec.and_zero
  refine or_eq_xor_of_and_eq_zero ?_
  calc asm16 m l &&& 0x0002#16
      = (m &&& 0x00#8) ++ ((l &&& dataMask) &&& 0x02#8) := (congrArg (· &&& 0x0002#16) (asm16_eq_append m l)).trans
          (BitVec.and_append (x₂ := 0x00#8) (y₂ := 0x02#8))
    _ = 0#16 := by rw [hmask, BitVec.and_zero]; rfl

theorem crc8_asm16_xor_adjRh (m l : Byte) : crc8 (asm16 m l) ^^^ adjRh = crc8 (asm16 m l ||| 0x0002#16) := by
  rw [asm16_or_two, crc8_xor, crc8_statusBit]

/-- Settles O31, by linearity of the remainder and by the checksum that a judged frame accepts. -/
theorem adjustmentIsTheStatusBitsRemainder : Obligations.AdjustmentIsTheStatusBitsRemainder := by
  refine ⟨crc8_statusBit, crc8_asm16_xor_adjRh, fun m l c s => ⟨_, exec_mrh .., ?_⟩, fun m l c s => ⟨_, exec_mt .., ?_⟩⟩
  · rw [respond_rsp, mrhRsp_eq_judgedRsp, judgedRsp_crcok_iff, crc8_asm16_xor_adjRh]
  · rw [respond_rsp, mtRsp_eq_judgedRsp, judgedRsp_crcok_iff, adjT, BitVec.xor_zero]

end Sys2Proof.Proofs
end

section
/-! PROOFS. 43_unit_converter.md: the two converter functions as integers, their order and range, the commands CVRH and CVT, and
HA's humidity expression in binary64. -/

namespace Sys2Proof.Proofs

open Sys2Proof Sys2Proof.Machine Sys2Proof.Laws Sys2Proof.Claims

/-! ### The two functions as integers (R100, R101, R104, R105) -/

/-- The integer is inside the range of `int32`, so its register holds it unchanged (R104). -/
theorem toInt_rhQ16 (raw : Half) : (rhQ16 raw).toInt = 125 * (raw.toNat : Int) - 393216 := by
  have hraw : raw.toNat < 65536 := raw.isLt
  unfold rhQ16 rhSlope rhOffset
  exact toInt_ofInt32 (by omega) (by omega)

/-- As for humidity: no wrap-around (R104). -/
theorem toInt_tQ16 (raw : Half) : (tQ16 raw).toInt = 17572 * (raw.toNat : Int) - 307036160 := by
  have hraw : raw.toNat < 65536 := raw.isLt
  unfold tQ16 tSlope tOffset
  exact toInt_ofInt32 (by omega) (by omega)

/-- Settles O33, by the integer that the register holds. -/
theorem humidityFormula : Obligations.HumidityFormula := by
  refine fun raw => ⟨toInt_rhQ16 raw, ?_⟩
  rw [toInt_rhQ16]
  push_cast
  ring

/-- Settles O34, by the integer that the register holds. -/
theorem temperatureFormula : Obligations.TemperatureFormula := by
  refine fun raw => ⟨toInt_tQ16 raw, ?_⟩
  rw [toInt_tQ16]
  push_cast
  ring

/-- Settles O37: both results are linear in `raw`, which is at most 65535. -/
theorem converterNeverOverflows : Obligations.ConverterNeverOverflows := by
  refine ⟨fun raw => ?_, toInt_rhQ16 _, toInt_rhQ16 _, toInt_tQ16 _, toInt_tQ16 _⟩
  have hraw : raw.toNat < 65536 := raw.isLt
  have hrh := toInt_rhQ16 raw
  have ht := toInt_tQ16 raw
  refine ⟨?_, ?_, ?_, ?_, ?_, ?_, hrh, ht⟩ <;> omega

/-- Settles O38: both results are linear in `raw` with a positive slope. -/
theorem converterIsStrictlyIncreasing : Obligations.ConverterIsStrictlyIncreasing := by
  intro a b hab
  rw [toInt_rhQ16, toInt_rhQ16, toInt_tQ16, toInt_tQ16]
  refine ⟨?_, ?_, ?_, ?_⟩ <;> omega

/-! ### The commands CVRH and CVT (R102, R103) -/

/-- Settles O35: CVRH answers the converted value in every state, and the sign points are those of the integer. -/
theorem cvrhResult : Obligations.CvrhResult := by
  refine ⟨fun a m l c => ?_, exec_cvrh, fun raw => ?_, ?_, ?_, ?_⟩
  · exact (decodeCommand_cvrh (op_join opCVRH a m l c)).trans (by rw [m_join, l_join])
  · rw [toInt_rhQ16]
    refine ⟨?_, ?_, ?_, ?_⟩ <;> omega
  · exact answers_of_word_eq (by decide +kernel)
  · exact answers_of_word_eq (by decide +kernel)
  · exact answers_of_word_eq (by decide +kernel)

/-- Settles O36: CVT answers the converted value in every state, and the sign points are those of the integer. -/
theorem cvtResult : Obligations.CvtResult := by
  refine ⟨fun a m l c => ?_, exec_cvt, fun raw => ?_, ?_, ?_, ?_, ?_⟩
  · exact (decodeCommand_cvt (op_join opCVT a m l c)).trans (by rw [m_join, l_join])
  · rw [toInt_tQ16]
    refine ⟨?_, ?_, ?_⟩ <;> omega
  · exact answers_of_word_eq (by decide +kernel)
  · exact answers_of_word_eq (by decide +kernel)
  · exact answers_of_word_eq (by decide +kernel)
  · exact answers_of_word_eq (by decide +kernel)

/-! ### HA's expressions in floating point (R106 to R109) -/

/-- A number of at most `p` significant bits is not changed by rounding to `p` bits. -/
theorem round_of_natAbs_lt {p : Nat} {x : BinFrac} (h : x.num.natAbs < 2 ^ p) : x.round p = x :=
  round_of_short (bitLength_le_of_lt_two_pow h)

/-- Subtracting an integer keeps the scale, so HA's offset 6 is subtracted as `6 * 65536`. -/
theorem minus_integer (n m : Int) (scale : Nat) :
    BinFrac.minus ⟨n, scale⟩ ⟨m, 0⟩ = ⟨n - m * (2 ^ scale : Nat), scale⟩ := by
  change BinFrac.mk (n * (1 : Int) - m * (2 ^ scale : Nat)) scale = _
  rw [mul_one]

/-- The product of HA's humidity expression, whatever power of two divides it, is short. -/
theorem fl64_humidityProduct (raw : Half) (scale : Nat) :
    fl64 ⟨125 * (raw.toNat : Int), scale⟩ = ⟨125 * (raw.toNat : Int), scale⟩ := by
  have hraw : raw.toNat < 65536 := raw.isLt
  have hshort : (125 * (raw.toNat : Int)).natAbs < 2 ^ 53 := by omega
  exact round_of_natAbs_lt hshort

/-- The humidity in Q16 has at most 23 significant bits, so no format of 24 bits or more rounds it. -/
theorem round_rhQ16 (raw : Half) {p : Nat} (hp : 24 ≤ p) :
    BinFrac.round p ⟨(rhQ16 raw).toInt, 16⟩ = ⟨(rhQ16 raw).toInt, 16⟩ := by
  have hraw : raw.toNat < 65536 := raw.isLt
  have hshort : (rhQ16 raw).toInt.natAbs < 2 ^ 24 := by
    rw [toInt_rhQ16]
    omega
  exact round_of_natAbs_lt (hshort.trans_le (Nat.pow_le_pow_right (by decide) hp))

/-- HA's humidity expression is exact: neither of its first two roundings changes anything, and the last one meets `rhQ16`. -/
theorem f64Rh_eq (raw : Half) : f64Rh raw = ⟨(rhQ16 raw).toInt, 16⟩ := by
  calc f64Rh raw
      = fl64 ((fl64 (fl64 ⟨125 * (raw.toNat : Int), 0⟩).over65536).minus ⟨6, 0⟩) := rfl
    _ = fl64 ((fl64 ⟨125 * (raw.toNat : Int), 16⟩).minus ⟨6, 0⟩) := by rw [fl64_humidityProduct]; rfl
    _ = fl64 (BinFrac.minus ⟨125 * (raw.toNat : Int), 16⟩ ⟨6, 0⟩) := by rw [fl64_humidityProduct]
    _ = fl64 ⟨(rhQ16 raw).toInt, 16⟩ := by rw [toInt_rhQ16, minus_integer]; rfl
    _ = ⟨(rhQ16 raw).toInt, 16⟩ := round_rhQ16 raw (by decide)

/-- Settles O39: every number that occurs has too few significant bits to be rounded. -/
theorem humidityInBinary64IsExact : Obligations.HumidityInBinary64IsExact := by
  refine fun raw => ⟨fl64_humidityProduct raw 0, fl64_humidityProduct raw 16, ?_, f64Rh_eq raw, ?_, ?_⟩
  · rw [f64Rh_eq, toInt_rhQ16]
  · rw [f64Rh_eq]
    exact round_rhQ16 raw (by decide)
  · rw [f64Rh_eq]
    exact round_rhQ16 raw (by decide)

/-- Settles O41: each pattern is computed by the reference function at its own value. -/
theorem floatReferencePatterns : Obligations.FloatReferencePatterns := by
  refine ⟨?_, ?_, ?_, ?_, ?_, ?_, ?_, ?_, ?_, ?_⟩ <;> decide +kernel

end Sys2Proof.Proofs
end

section
/-! PROOFS. 44_measurement_paths.md: the commands MRH and MT, the two read accessors, the parameter TEMPERATURE_COMMAND, and how
`initialize` begins and ends. -/

namespace Sys2Proof.Proofs

open Sys2Proof Sys2Proof.Machine Sys2Proof.Laws Sys2Proof.Claims

/-! ### The path commands (R115 to R118) -/

theorem decodeFrame_val (m l c a : Byte) : (decodeFrame m l c a).val = specVal m l (c ^^^ a) :=
  congrArg Rsp.val (judgedRsp_eq_specFrameRsp m l c a 0#32)

/-- The response of MRH in the rules' own words. -/
theorem mrhRsp_eq_specFrameRsp (m l c : Byte) :
    mrhRsp m l c = specFrameRsp m l (c ^^^ adjRh) (rhQ16 (specVal m l (c ^^^ adjRh))) := by
  rw [mrhRsp_eq_judgedRsp, judgedRsp_eq_specFrameRsp, decodeFrame_val]

/-- The response of MT in the rules' own words: the adjustment 0x00 leaves the received checksum as it is. -/
theorem mtRsp_eq_specFrameRsp (m l c : Byte) : mtRsp m l c = specFrameRsp m l c (tQ16 (specVal m l c)) := by
  rw [mtRsp_eq_judgedRsp, judgedRsp_eq_specFrameRsp, decodeFrame_val, adjT, BitVec.xor_zero]

/-- Settles O42: the response of MRH is a judged frame with the converted VAL, and the words are answered by `responseTo`. -/
theorem mrhResult : Obligations.MrhResult := by
  refine ⟨fun a m l c => ?_, fun m l c s => ?_, ?_, ?_, ?_⟩
  · exact (decodeCommand_mrh (op_join opMRH a m l c)).trans (by rw [m_join, l_join, c_join])
  · rw [exec_mrh, mrhRsp_eq_specFrameRsp]
    rfl
  · exact answers_of_word_eq (by decide +kernel)
  · exact answers_of_word_eq (by decide +kernel)
  · exact answers_of_word_eq (by decide +kernel)

/-- Settles O43: the response of MT is a judged frame with the converted VAL, and the words are answered by `responseTo`. -/
theorem mtResult : Obligations.MtResult := by
  refine ⟨fun a m l c => ?_, fun m l c s => ?_, ?_, ?_⟩
  · exact (decodeCommand_mt (op_join opMT a m l c)).trans (by rw [m_join, l_join, c_join])
  · rw [exec_mt, mtRsp_eq_specFrameRsp]
    rfl
  · exact answers_of_word_eq (by decide +kernel)
  · exact answers_of_word_eq (by decide +kernel)

/-- Settles O44: a path response is DEC's with PHYS replaced by the converter's. -/
theorem pathsAreCompositions : Obligations.PathsAreCompositions := fun m l c s1 s2 s3 =>
  ⟨⟨_, _, _, exec_mrh m l c s1, exec_dec m l c adjRh s2, exec_cvrh _ s3, rfl, rfl, rfl, rfl, rfl⟩,
    ⟨_, _, _, exec_mt m l c s1, exec_dec m l c adjT s2, exec_cvt _ s3, rfl, rfl, rfl, rfl, rfl⟩⟩

/-- Either cause takes VAL away (R118). -/
theorem specVal_of_disqualified {m l k : Byte} (h : l.getLsbD 1 = true ∨ crc8 (asm16 m l) ≠ k) :
    specVal m l k = 0#16 := by
  rw [asm16_eq_specAsm] at h
  refine if_neg fun ⟨hst, hok⟩ => ?_
  obtain h | h := h
  · exact Bool.false_ne_true (hst.symm.trans h)
  · exact h hok

theorem rhQ16_zero : rhQ16 0#16 = 0xFFFA0000#32 := by decide

theorem tQ16_zero : tQ16 0#16 = 0xEDB30000#32 := by decide

/-- Settles O45: a disqualified reading has VAL 0, and PHYS is the conversion of that. -/
theorem disqualifiedReadingIsConverted : Obligations.DisqualifiedReadingIsConverted := by
  refine fun m l c s => ⟨fun h => ⟨_, exec_mrh .., ?_⟩, fun h => ⟨_, exec_mt .., ?_⟩⟩
  · rw [respond_rsp, mrhRsp_eq_specFrameRsp, adjRh, specVal_of_disqualified h]
    exact ⟨specVal_of_disqualified h, rhQ16_zero, toInt_rhQ16 0#16⟩
  · rw [respond_rsp, mtRsp_eq_specFrameRsp, specVal_of_disqualified h]
    exact ⟨specVal_of_disqualified h, tQ16_zero, toInt_tQ16 0#16⟩

/-! ### The read accessors (R122 to R124) -/

section

variable {command : Byte → Byte → Byte → Instr} {s : State} (byte : Byte) (toFloat : Half → BitVec 32)

theorem readWith_unavailable (h : s.available = false) (answer : BusAnswer) :
    readWith byte command toFloat answer s = .next (s.hand (.number 0#32)) := by
  simp [readWith, h]

theorem readWith_busError (h : s.available = true) :
    readWith byte command toFloat .busError s = .next ((s.transact byte .busError).hand .busFailure) := by
  simp [readWith, h]

/-- On any path whose command answers the response `r` whatever the state. -/
theorem readWith_frame {r : Byte → Byte → Byte → Rsp}
    (hc : ∀ m l c s, exec (command m l c) s = .next (s.respond (r m l c))) (h : s.available = true) (f : Frame) :
    readWith byte command toFloat (.frame f) s =
      .next (((s.transact byte (.frame f)).respond (r f.msb f.lsb f.checksum)).hand
        (.number (toFloat (r f.msb f.lsb f.checksum).val))) := by
  simp [readWith, h, hc]

end

/-- Settles O47, one outcome of the read after another; that the humidity handed over is PHYS is `f64Rh_eq`. -/
theorem readHumidityProcedure : Obligations.ReadHumidityProcedure := fun _ =>
  ⟨readWith_unavailable _ _, fun h => ⟨readWith_busError _ _ h, fun f =>
    ⟨mrhRsp f.msb f.lsb f.checksum, exec_mrh .., readWith_frame _ _ exec_mrh h f, f64Rh_eq _⟩⟩⟩

/-- Settles O48, one outcome of the read after another. -/
theorem readTemperatureProcedure : Obligations.ReadTemperatureProcedure := fun _ =>
  ⟨readWith_unavailable _ _, fun h => ⟨readWith_busError _ _ h, fun f =>
    ⟨mtRsp f.msb f.lsb f.checksum, exec_mt .., readWith_frame _ _ exec_mt h f⟩⟩⟩

/-! ### TEMPERATURE_COMMAND (R125) -/

theorem advance_sameHost {w : CmdWord} {n : Nat} {s t : State} (h : advance w n s = .next t) : sameHost s t := by
  obtain rfl | ⟨f, -, rfl⟩ := advance_next_cases h
  · exact ⟨rfl, rfl, rfl, rfl, rfl, rfl, rfl, rfl, rfl⟩
  · exact ⟨rfl, rfl, rfl, rfl, rfl, rfl, rfl, rfl, rfl⟩

/-- A clock cycle does not touch the host. -/
theorem clock_sameHost {p : PortInputs} {s t : State} (h : clock p s = .next t) : sameHost s t := by
  obtain ⟨-, hc⟩ | ⟨-, f, -, hc⟩ | ⟨-, -, -, hc⟩ | ⟨-, -, -, hc⟩ := clock_cases p s <;> rw [hc] at h
  · cases h
    exact ⟨rfl, rfl, rfl, rfl, rfl, rfl, rfl, rfl, rfl⟩
  · exact advance_sameHost h
  · exact advance_sameHost h
  · cases h
    exact ⟨rfl, rfl, rfl, rfl, rfl, rfl, rfl, rfl, rfl⟩

theorem clock_temperatureMode {p : PortInputs} {s t : State} (h : clock p s = .next t) :
    t.temperatureMode = s.temperatureMode := by
  obtain ⟨-, -, -, hmode, -⟩ := clock_sameHost h
  exact hmode

theorem issue_temperatureMode {c : CodeWord} {s t : State} (h : issue c s = .next t) :
    t.temperatureMode = s.temperatureMode := by
  cases c with
  | cmd40 w =>
    cases h.symm.trans (issue_cmd40 w s)
    rfl
  | bus8 b =>
    obtain ⟨-, hb⟩ | ⟨-, hb⟩ | ⟨-, -, hb⟩ := issue_bus8_cases b s <;> cases h.symm.trans hb
    · rfl
    · rfl

theorem readWith_temperatureMode {command : Byte → Byte → Byte → Instr} {r : Byte → Byte → Byte → Rsp}
    (hc : ∀ m l c s, exec (command m l c) s = .next (s.respond (r m l c)))
    {byte : Byte} {toFloat : Half → BitVec 32} {answer : BusAnswer} {s t : State}
    (h : readWith byte command toFloat answer s = .next t) : t.temperatureMode = s.temperatureMode := by
  obtain ⟨-, hr⟩ | ⟨-, -, hr⟩ | ⟨-, f, -, hr⟩ := readWith_cases hc byte toFloat answer s <;> cases h.symm.trans hr
  · rfl
  · rfl
  · rfl

/-- No action of the host changes the mode: no update of the state that an action makes touches this field (log 10). -/
theorem perform_temperatureMode {a : HostAction} {s t : State} (h : perform a s = .next t) :
    t.temperatureMode = s.temperatureMode := by
  cases a with
  | issue c => exact issue_temperatureMode h
  | cycle p => exact clock_temperatureMode h
  | sampleRsp =>
    cases h
    rfl
  | beginInit =>
    obtain ⟨-, hb⟩ | ⟨-, hb⟩ := beginInitialize_cases s <;> cases h.symm.trans hb
    rfl
  | completeInit =>
    obtain ⟨-, -, hb⟩ | ⟨-, -, -, hb⟩ | ⟨-, -, -, hb⟩ | ⟨-, hb⟩ :=
      completeInitializeOn_cases (Config.openSucceeds s.draws) (Config.busAnswer (s.draws + 1)) s.draw <;>
      cases h.symm.trans hb
    · rfl
    · rfl
    · rfl
  | abandonInit =>
    obtain ⟨-, hb⟩ | ⟨-, hb⟩ := abandonInitialize_cases s <;> cases h.symm.trans hb
    rfl
  | readHumidity => exact readWith_temperatureMode exec_mrh h
  | readTemperature => exact readWith_temperatureMode exec_mt h
  | newSession =>
    cases h
    rfl

theorem step_temperatureMode {s t : State} (h : step s = .next t) : t.temperatureMode = s.temperatureMode := by
  cases hs : s.script with
  | nil => exact clock_temperatureMode ((step_nil hs).symm.trans h)
  | cons a rest =>
    rw [step_cons hs] at h
    exact perform_temperatureMode (s := { s with script := rest }) h

/-- Settles O49: of a read the mode changes the byte of the transaction only, and no step changes the mode. -/
theorem temperatureCommandModes : Obligations.TemperatureCommandModes := by
  refine ⟨rfl, rfl, rfl, fun f s q h => ?_, fun _ _ => step_temperatureMode⟩
  exact ⟨_, _, readWith_frame _ _ exec_mt h f, readWith_frame (s := { s with temperatureMode := q }) _ _ exec_mt h f,
    ⟨rfl, rfl, rfl⟩, rfl⟩

/-! ### `initialize` (R121, 60_exceptions.md R142) -/

theorem completeInitializeOn_notOpened {s : State} (h : s.init = .suspended) (answer : BusAnswer) :
    completeInitializeOn false answer s = .next (initFailed s) := by
  simp [completeInitializeOn, h]

theorem completeInitializeOn_busError {s : State} (h : s.init = .suspended) :
    completeInitializeOn true .busError s = .next (initFailed (s.transact cmdTHold .busError)) := by
  simp [completeInitializeOn, h]

theorem completeInitializeOn_frame {s : State} (h : s.init = .suspended) (f : Frame) :
    completeInitializeOn true (.frame f) s = .next (initSucceeded (s.transact cmdTHold (.frame f))) := by
  simp [completeInitializeOn, h]

theorem completeInitializeOn_outOfOrder {s : State} (h : s.init ≠ .suspended) (opened : Bool) (answer : BusAnswer) :
    completeInitializeOn opened answer s = .refused .initOutOfOrder :=
  if_neg h

/-- Settles O50, one ending after another; an abandoned `initialize` is not suspended, so it cannot be completed. -/
theorem initializeEnds : Obligations.InitializeEnds := fun _ h =>
  ⟨completeInitializeOn_notOpened h, completeInitializeOn_busError h, completeInitializeOn_frame h, if_pos h,
    completeInitializeOn_outOfOrder nofun⟩

/-- Settles O59: a call is accepted exactly where none was made in this session, and a new session has made none. -/
theorem initializeBegins : Obligations.InitializeBegins := fun _ _ =>
  ⟨fun hs h => (step_cons hs).trans (if_pos h), fun hs h => (step_cons hs).trans (if_neg h),
    fun hs => ⟨_, step_cons hs, rfl, rfl, rfl⟩⟩

end Sys2Proof.Proofs
end

section
/-! PROOFS. 60_exceptions.md: the two causes of disqualification, the block and the host kept apart, and a block that nothing
stops. -/

namespace Sys2Proof.Proofs

open Sys2Proof Sys2Proof.Machine Sys2Proof.Laws Sys2Proof.Claims

/-! ### The two causes of disqualification (R132) -/

/-- FLG of a judged frame, from the two verdicts. -/
theorem judgedRsp_flg {m l c a : Byte} {st ok : Bool} (p : Phys) (hst : l.getLsbD 1 = st)
    (hok : decide (crc8 (asm16 m l) = c ^^^ a) = ok) : (judgedRsp m l c a p).flg = specFlg st ok := by
  rw [judgedRsp_eq_specFrameRsp, ← hst, ← hok, asm16_eq_specAsm]
  rfl

theorem judgedRsp_val_of_usable {m l c a : Byte} (p : Phys) (hst : l.getLsbD 1 = false)
    (hok : crc8 (asm16 m l) = c ^^^ a) : (judgedRsp m l c a p).val = asm16 m l := by
  rw [asm16_eq_specAsm] at hok ⊢
  rw [judgedRsp_eq_specFrameRsp]
  exact if_pos ⟨hst, hok⟩

theorem judgedRsp_val_of_disqualified {m l c a : Byte} (p : Phys)
    (h : l.getLsbD 1 = true ∨ crc8 (asm16 m l) ≠ c ^^^ a) : (judgedRsp m l c a p).val = 0#16 :=
  (congrArg Rsp.val (judgedRsp_eq_specFrameRsp m l c a p)).trans (specVal_of_disqualified h)

/-- DEC, MRH and MT judge the frame under their adjustment, and a path converts the VAL that comes of it. -/
theorem exec_judged {m l c a : Byte} {i : Instr}
    (hi : i = .dec m l c a ∨ (i = .mrh m l c ∧ a = adjRh) ∨ (i = .mt m l c ∧ a = adjT)) (s : State) :
    ∃ p, exec i s = .next (s.respond (judgedRsp m l c a p)) ∧
      (i = .mrh m l c → p = rhQ16 (judgedRsp m l c a p).val) ∧ (i = .mt m l c → p = tQ16 (judgedRsp m l c a p).val) := by
  obtain rfl | ⟨rfl, rfl⟩ | ⟨rfl, rfl⟩ := hi
  · exact ⟨_, exec_dec .., nofun, nofun⟩
  · exact ⟨_, exec_mrh .., fun _ => rfl, nofun⟩
  · exact ⟨_, exec_mt .., nofun, fun _ => rfl⟩

/-- Settles O32: the frame is judged in every state, and each row of the table is one pair of verdicts. -/
theorem disqualificationCauses : Obligations.DisqualificationCauses := by
  intro m l c a i s hi
  obtain ⟨p, hexec, hrh, ht⟩ := exec_judged hi s
  refine ⟨_, hexec, judgedRsp_err .., rfl, rfl, hrh, ht, fun hst hok => ?_, fun hst hok => ?_, fun hst hok => ?_,
    fun hst hok => ?_⟩
  · exact ⟨judgedRsp_flg p hst (decide_eq_true hok), judgedRsp_val_of_usable p hst hok⟩
  · exact ⟨judgedRsp_flg p hst (decide_eq_false hok), judgedRsp_val_of_disqualified p (.inr hok)⟩
  · exact ⟨judgedRsp_flg p hst (decide_eq_true hok), judgedRsp_val_of_disqualified p (.inl hst)⟩
  · exact ⟨judgedRsp_flg p hst (decide_eq_false hok), judgedRsp_val_of_disqualified p (.inl hst)⟩

/-! ### Block and host apart (R140, 10_state.md R27) -/

theorem issue_cmd40_sameHost {w : CmdWord} {s t : State} (h : issue (.cmd40 w) s = .next t) : sameHost s t := by
  cases h.symm.trans (issue_cmd40 w s)
  exact ⟨rfl, rfl, rfl, rfl, rfl, rfl, rfl, rfl, rfl⟩

/-- The actions of the host that give the block nothing to do: all but a command word, a clock cycle and the accessors. -/
def leavesBlock (a : HostAction) : Prop :=
  a = .sampleRsp ∨ a = .beginInit ∨ a = .completeInit ∨ a = .abandonInit ∨ a = .newSession ∨ ∃ b, a = .issue (.bus8 b)

theorem perform_sameBlock {a : HostAction} {s t : State} (ha : leavesBlock a) (h : perform a s = .next t) :
    sameBlock s t ∧ t.script = s.script := by
  obtain rfl | rfl | rfl | rfl | rfl | ⟨b, rfl⟩ := ha
  · cases h
    exact ⟨⟨rfl, rfl, rfl⟩, rfl⟩
  · obtain ⟨-, hb⟩ | ⟨-, hb⟩ := beginInitialize_cases s <;> cases h.symm.trans hb
    exact ⟨⟨rfl, rfl, rfl⟩, rfl⟩
  · obtain ⟨-, -, hb⟩ | ⟨-, -, -, hb⟩ | ⟨-, -, -, hb⟩ | ⟨-, hb⟩ :=
      completeInitializeOn_cases (Config.openSucceeds s.draws) (Config.busAnswer (s.draws + 1)) s.draw <;>
      cases h.symm.trans hb
    · exact ⟨⟨rfl, rfl, rfl⟩, rfl⟩
    · exact ⟨⟨rfl, rfl, rfl⟩, rfl⟩
    · exact ⟨⟨rfl, rfl, rfl⟩, rfl⟩
  · obtain ⟨-, hb⟩ | ⟨-, hb⟩ := abandonInitialize_cases s <;> cases h.symm.trans hb
    exact ⟨⟨rfl, rfl, rfl⟩, rfl⟩
  · cases h
    exact ⟨⟨rfl, rfl, rfl⟩, rfl⟩
  · obtain ⟨-, hb⟩ | ⟨-, hb⟩ | ⟨-, -, hb⟩ := issue_bus8_cases b s <;> cases h.symm.trans hb
    · exact ⟨⟨rfl, rfl, rfl⟩, rfl⟩
    · exact ⟨⟨rfl, rfl, rfl⟩, rfl⟩

/-- Settles O53: what a command or a cycle leaves of the host, and what the host's other actions leave of the block. -/
theorem blockAndHostKeepApart : Obligations.BlockAndHostKeepApart := by
  refine ⟨fun _ _ _ => issue_cmd40_sameHost, fun _ _ _ => clock_sameHost, fun s t a rest hs h ha => ?_⟩
  rw [step_cons hs] at h
  exact perform_sameBlock (s := { s with script := rest }) ha h

/-! ### Nothing stops the block (R135, R136) -/

theorem exists_advance_next (w : CmdWord) (n : Nat) (s : State) : ∃ t, advance w n s = .next t := by
  by_cases hlast : n ≤ 1
  · exact ⟨_, (advance_last hlast w s).trans (issue_cmd40 w s)⟩
  · exact ⟨_, advance_more (Nat.not_le.mp hlast) w s⟩

theorem exists_clock_next (p : PortInputs) (s : State) : ∃ t, clock p s = .next t := by
  obtain ⟨-, hc⟩ | ⟨-, f, -, hc⟩ | ⟨-, -, -, hc⟩ | ⟨-, -, -, hc⟩ := clock_cases p s <;> rw [hc]
  · exact ⟨_, rfl⟩
  · exact exists_advance_next ..
  · exact exists_advance_next ..
  · exact ⟨_, rfl⟩

/-- On any path whose command answers a response whatever the state. -/
theorem exists_readWith_next {command : Byte → Byte → Byte → Instr} {r : Byte → Byte → Byte → Rsp}
    (hc : ∀ m l c s, exec (command m l c) s = .next (s.respond (r m l c)))
    (byte : Byte) (toFloat : Half → BitVec 32) (answer : BusAnswer) (s : State) :
    ∃ t, readWith byte command toFloat answer s = .next t := by
  obtain ⟨-, hr⟩ | ⟨-, -, hr⟩ | ⟨-, f, -, hr⟩ := readWith_cases hc byte toFloat answer s
  · exact ⟨_, hr⟩
  · exact ⟨_, hr⟩
  · exact ⟨_, hr⟩

/-- Settles O54: a command word is answered, a cycle passes and a read returns, whatever the state. -/
theorem theBlockNeverStops : Obligations.TheBlockNeverStops := by
  rintro s (hs | ⟨w, rest, hs⟩ | ⟨p, rest, hs⟩ | ⟨rest, hs⟩ | ⟨rest, hs⟩ | ⟨rest, hs⟩)
  · rw [step_nil hs]
    exact exists_clock_next ..
  · exact ⟨_, (step_cons hs).trans (issue_cmd40 w _)⟩
  · rw [step_cons hs]
    exact exists_clock_next ..
  · exact ⟨_, step_cons hs⟩
  · rw [step_cons hs]
    exact exists_readWith_next exec_mrh ..
  · rw [step_cons hs]
    exact exists_readWith_next exec_mt ..

end Sys2Proof.Proofs
end

section
/-! PROOFS. 70_reset_and_hazards.md: the block's reset, the cycles of a busy, an idle and an accepting block, and the run of a
command list. -/

namespace Sys2Proof.Proofs

open Sys2Proof Sys2Proof.Machine Sys2Proof.Laws Sys2Proof.Claims

/-! ### One cycle, and cycles one after another -/

theorem clock_of_rst {p : PortInputs} {s : State} (h : p.rst = true) : clock p s = .next s.blockReset :=
  if_pos h

section

variable {p : PortInputs} {s : State} (hrst : p.rst = false)

include hrst

theorem clock_of_busy {w : CmdWord} {n : Nat} (hbusy : s.inflight = some ⟨w, n⟩) : clock p s = advance w n s := by
  simp [clock, hrst, hbusy]

theorem clock_of_accept (hidle : s.inflight = none) (hv : p.cmdValid = true) :
    clock p s = advance p.cmd (Config.extraLatency p.cmd + 1) s := by
  simp [clock, hrst, hidle, hv]

theorem clock_of_idle (hidle : s.inflight = none) (hv : p.cmdValid = false) :
    clock p s = .next { s with rspValid := false } := by
  simp [clock, hrst, hidle, hv]

end

theorem clockAll_cons {p : PortInputs} {s t : State} (h : clock p s = .next t) (ps : List PortInputs) :
    clockAll (p :: ps) s = clockAll ps t := by
  simp [clockAll, h]

theorem clockAll_append {ps : List PortInputs} {s t : State} (h : clockAll ps s = .next t) (qs : List PortInputs) :
    clockAll (ps ++ qs) s = clockAll qs t := by
  induction ps generalizing s with
  | nil =>
    cases h
    rfl
  | cons p ps ih =>
    obtain ⟨u, hu⟩ := exists_clock_next p s
    rw [clockAll_cons hu] at h
    rw [List.cons_append, clockAll_cons hu, ih h]

/-! ### Reset (R150, R151) -/

theorem flg_responseTo_ne_zero (w : CmdWord) : (responseTo w).flg ≠ 0x00#8 := by
  intro h
  have hvalid := valid_responseTo w
  simp [Rsp.valid, h] at hvalid

/-- Settles O2: a step leaves RSP, answers a command with VALID 1, or is a cycle with `rst = 1`. -/
theorem resetClearsTheBlock : Obligations.ResetClearsTheBlock := by
  refine ⟨fun p s => clock_of_rst, fun s t h hs ht => ?_, fun w s t h hflg => ?_⟩
  · have hlost : t.rsp.valid ≠ true := Bool.eq_false_iff.mp ht
    cases (step_moves h).1 with
    | kept same =>
      obtain ⟨hrsp, -⟩ := same
      exact absurd (hrsp ▸ hs) hlost
    | reset script => exact script
    | answered w hrsp => exact absurd (hrsp ▸ valid_responseTo w) hlost
    | waiting _ _ hrsp => exact absurd (hrsp ▸ hs) hlost
    | idle hrsp => exact absurd (hrsp ▸ hs) hlost
  · cases h.symm.trans (issue_cmd40 w s)
    exact flg_responseTo_ne_zero w hflg

/-- Idle cycles leave a block alone that has nothing in progress and no pulse to end. -/
theorem clockAll_replicate_idle {s : State} (hidle : s.inflight = none) (hpulse : s.rspValid = false) (n : Nat) :
    clockAll (List.replicate n PortInputs.idle) s = .next s := by
  have hstay : clock PortInputs.idle s = .next s := by
    rw [clock_of_idle rfl hidle rfl, ← hpulse]
  induction n with
  | zero => rfl
  | succ n ih => rw [List.replicate_succ, clockAll_cons hstay, ih]

/-- Settles O3: a reset forgets the command, so the idle cycles after it find nothing to answer. -/
theorem resetAbandonsTheCommand : Obligations.ResetAbandonsTheCommand := by
  refine fun p s f n hrst _ => ⟨?_, ?_⟩
  · rw [clockAll_cons (clock_of_rst hrst)]
    exact clockAll_replicate_idle rfl rfl n
  · rw [clock_of_rst hrst, clock_of_rst hrst]
    rfl

/-! ### Busy, idle and accepting cycles (R156, R157, R161) -/

/-- Settles O4: a busy cycle without reset does not look at what is offered. -/
theorem busyBlockAcceptsNothing : Obligations.BusyBlockAcceptsNothing := by
  refine fun p s f hrst hbusy => ⟨?_, ?_⟩
  · simp [State.cmdReady, hbusy]
  · rw [clock_of_busy hrst hbusy, clock_of_busy rfl hbusy]

/-- A rising edge with `n` edges to go, and fewer than the remaining `n - 1` cycles without reset after it: the command is still in
progress and the pulse is over, all else as before. -/
theorem clockAll_of_advance_waiting {w : CmdWord} {p : PortInputs} {ps : List PortInputs} {s : State} {n : Nat}
    (hp : clock p s = advance w n s) (hrst : ∀ q ∈ ps, q.rst = false) (hn : ps.length + 1 < n) :
    clockAll (p :: ps) s = .next { s with rspValid := false, inflight := some ⟨w, n - (ps.length + 1)⟩ } := by
  induction ps generalizing p s n with
  | nil => exact clockAll_cons (hp.trans (advance_more hn w s)) []
  | cons q qs ih =>
    rw [List.forall_mem_cons] at hrst
    rw [List.length_cons] at hn ⊢
    rw [clockAll_cons (hp.trans (advance_more (by omega) w s)),
      ih (clock_of_busy hrst.1 rfl) hrst.2 (Nat.lt_sub_of_add_lt hn), Nat.sub_sub, Nat.add_comm 1]

/-- Settles O5: each cycle before the response is a rising edge with edges to go, the accepting cycle among them; the edge that
writes the response cuts the list of cycles in two. -/
theorem responseLastsUntilTheNext : Obligations.ResponseLastsUntilTheNext := by
  refine ⟨fun ps s w n hrst hne hbusy hn => ?_, fun p s hidle hrst hv => clock_of_idle hrst hidle hv,
    fun w ps s hidle hrst => ⟨responseTo w, issue_cmd40 w s, ?_⟩⟩
  · cases ps with
    | nil => exact absurd rfl hne
    | cons p ps =>
      rw [List.forall_mem_cons] at hrst
      exact clockAll_of_advance_waiting (clock_of_busy hrst.1 hbusy) hrst.2 hn
  · have haccept : clock ⟨false, true, w⟩ s = advance w (Config.extraLatency w + 1) s := clock_of_accept rfl hidle rfl
    split
    next hlt =>
      rw [clockAll_of_advance_waiting haccept hrst (Nat.succ_lt_succ hlt), Nat.add_sub_add_right]
    next hge =>
      have hlen : (ps.take (Config.extraLatency w)).length = Config.extraLatency w :=
        List.length_take_of_le (Nat.not_lt.mp hge)
      have hfirst : clockAll (⟨false, true, w⟩ :: ps.take (Config.extraLatency w)) s = .next (s.respond (responseTo w)) :=
        clockAll_of_advance w _ _ s (hlen.symm ▸ haccept) fun q hq => hrst q (List.mem_of_mem_take hq)
      have hsplit := clockAll_append hfirst (ps.drop (Config.extraLatency w))
      rwa [List.cons_append, List.take_append_drop] at hsplit

/-! ### The run of a command list (R162) -/

theorem run_succ {M : Host.Core} {s t : M.State} (h : M.step s = .next t) (k : Nat) : M.run (k + 1) s = M.run k t := by
  rw [Host.Core.run, h]

/-- Each word of the list is one step, and each response hides the one before it. -/
theorem run_commands {ws : List CmdWord} {w : CmdWord} {s : State} {rest : List HostAction}
    (hs : s.script = (ws ++ [w]).map (fun v => HostAction.issue (.cmd40 v)) ++ rest) :
    Host.Core.run core (ws ++ [w]).length s = .next (State.respond { s with script := rest } (responseTo w)) := by
  induction ws generalizing s with
  | nil => exact run_succ (M := core) ((step_cons hs).trans (issue_cmd40 w _)) 0
  | cons v vs ih => exact (run_succ (M := core) ((step_cons hs).trans (issue_cmd40 v _)) _).trans (ih rfl)

/-- A read ends with a number or the bus failure, on any path whose command answers a response whatever the state. -/
theorem readWith_handsOver {command : Byte → Byte → Byte → Instr} {r : Byte → Byte → Byte → Rsp}
    (hc : ∀ m l c s, exec (command m l c) s = .next (s.respond (r m l c)))
    (byte : Byte) (toFloat : Half → BitVec 32) (answer : BusAnswer) (s : State) :
    ∃ t o, readWith byte command toFloat answer s = .next t ∧ t.outcome = some o ∧
      (o = .busFailure ∨ ∃ b, o = .number b) := by
  obtain ⟨-, hr⟩ | ⟨-, -, hr⟩ | ⟨-, f, -, hr⟩ := readWith_cases hc byte toFloat answer s
  · exact ⟨_, _, hr, hand_outcome .., .inr ⟨_, rfl⟩⟩
  · exact ⟨_, _, hr, hand_outcome .., .inl rfl⟩
  · exact ⟨_, _, hr, hand_outcome .., .inr ⟨_, rfl⟩⟩

/-- Settles O55: one step for each word, the last response alone is left, and every outcome of a read is handed over. -/
theorem runOfACommandList : Obligations.RunOfACommandList :=
  ⟨fun s _ w _ hs => ⟨responseTo w, issue_cmd40 w s, run_commands hs⟩, rfl, fun s a =>
    ⟨readWith_handsOver exec_mrh _ _ a s, readWith_handsOver exec_mt _ _ a s⟩⟩

end Sys2Proof.Proofs
end
